-- ==== Sys2Proof/Word.lean ====
section
/-!
DEFINITION. The plain data the block moves: bytes, line numbers, payload buffers, and the one mask-and-match
test every row of the opcode table is read with.
-/

namespace Sys2Proof

/-- A payload byte; bit 0 is its least significant bit (00_scope.md R8, 20_memory.md R53). -/
abbrev Byte := BitVec 8

/-- The `LINE` field of a request, copied into every record (30_encoding.md R73). -/
abbrev Line := BitVec 16

/-- A 7-bit character: a parity-stripped caption byte, or a VPS label character. -/
abbrev Char7 := BitVec 7

/-- A Unicode scalar as the caption records carry it, `u21` (30_encoding.md R82). -/
abbrev CodePoint := BitVec 21

/-- The data buffer of a request, `DATA[0..41]` (10_state.md R32, 20_memory.md R50). `p[0]` is the first byte
the slicer delivers (00_scope.md R9). -/
abbrev Payload := Vector Byte 42

/-- The 13 payload bytes of a VPS packet (30_encoding.md R77). -/
abbrev VpsPayload := Vector Byte 13

/-- The 40 pass-through bytes of a Teletext record (30_encoding.md R84). -/
abbrev TtxData := Vector Byte 40

/-- A row of the opcode table matches a word when `(word & mask) == match` (30_encoding.md R94). -/
abbrev rowMatches {w : Nat} (word mask pattern : BitVec w) : Bool := word &&& mask == pattern

end Sys2Proof
end

