-- ==== Sys2Proof/Config.lean ====
section
/-!
DEFINITION. The configuration parameters of 00_scope.md R7. They are fixed when the block is built and cannot
change while it runs (70_reset_and_hazards.md R332). Plain data, so that a state which carries them can be written
out and compared. The defaults of R7 are in Machine/Tables.lean.
-/

namespace Sys2Proof

/-- One setting of every parameter of 00_scope.md R7. A table is a vector with one entry per index, so every
setting is a total function, as R7 asks. -/
structure Config where
  /-- `P_UNHAM8 : u8 -> Option u4`, the Hamming 8/4 decode (R13); `none` means not correctable. -/
  unham8 : Vector (Option (BitVec 4)) 256
  /-- `P_PAC_ROW`, 16 entries of 0..15, where 0 means unassigned (41_caption.md R125). -/
  pacRow : Vector (BitVec 4) 16
  /-- `P_CC_BASIC`, codes 0x20..0x7F; entry i is code 0x20 + i (41_caption.md R122). -/
  ccBasic : Vector CodePoint 96
  /-- `P_CC_SPECIAL`, indexed by `c2[3:0]` (41_caption.md R123). -/
  ccSpecial : Vector CodePoint 16
  /-- `P_CC_EXT2`, indexed by `c2 - 0x20` (41_caption.md R124). -/
  ccExt2 : Vector CodePoint 32
  /-- `P_CC_EXT3`, indexed by `c2 - 0x20` (41_caption.md R124). -/
  ccExt3 : Vector CodePoint 32
  /-- `P_WSS_PARITY_ODD_OK` (43_wss625.md R192). -/
  wssParityOddOk : Bool
  /-- `P_IDL_CH7_LBRA` (46_idl.md R252). -/
  idlCh7Lbra : Bool
deriving DecidableEq, Repr

end Sys2Proof
end

