-- ==== Sys2Proof/Machine/Flags.lean ====
section
/-!
DEFINITION. The checks the block computes: odd parity (00_scope.md R12), Hamming 8/4 and 16/8 (R13, R14), the
WSS-625 group-1 parity (43_wss625.md R191, R192) and the CPR1204 remainder (44_wss_cpr1204.md R212). The block has
no stored condition codes (10_state.md R37): each result goes into the record of the request that computed it.
-/

namespace Sys2Proof.Machine

/-- `popcount(v)`, the number of one bits of v (00_scope.md R11). -/
def popcount {w : Nat} (v : BitVec w) : Nat := (List.range w).countP (fun i => v.getLsbD i)

/-- `unpar8(b)`: the low seven bits of a byte with an odd number of one bits, else `none` (00_scope.md R12). -/
def unpar8 (b : Byte) : Option Char7 :=
  if popcount b % 2 = 1 then some (b.extractLsb' 0 7) else none

/-- The byte that carries a 7-bit value with odd parity in bit 7: what `unpar8` undoes. The encoder uses it. -/
def addParity (c : Char7) : Byte :=
  (if popcount c % 2 = 1 then 0#1 else 1#1) ++ c

/-- `unham8(b)`, which is the parameter `P_UNHAM8` (00_scope.md R13). -/
def unham8 (cfg : Config) (b : Byte) : Option (BitVec 4) := cfg.unham8[b.toNat]'(b.isLt)

/-- `unham16(b0, b1)`: two Hamming 8/4 bytes, the first giving the low nibble (00_scope.md R14). -/
def unham16 (cfg : Config) (b0 b1 : Byte) : Option (BitVec 8) :=
  match unham8 cfg b0, unham8 cfg b1 with
  | some n0, some n1 => some (n1 ++ n0)
  | _, _ => none

/-- Hamming decode of a run of bytes; `none` as soon as one is not correctable (46_idl.md R255, R257). -/
def unhamAll (cfg : Config) : List Byte → Option (List (BitVec 4))
  | [] => some []
  | b :: bs =>
    match unham8 cfg b, unhamAll cfg bs with
    | some n, some ns => some (n :: ns)
    | _, _ => none

/-- `par`, the XOR of the four group-1 bits, by the document's fold (43_wss625.md R191). -/
def wssParity (g1 : BitVec 4) : BitVec 1 :=
  let x1 := g1 ^^^ (g1 >>> 2)
  let x2 := x1 ^^^ (x1 >>> 1)
  x2.extractLsb' 0 1

/-- `parity_ok` under `P_WSS_PARITY_ODD_OK` (43_wss625.md R192). -/
def wssParityOk (cfg : Config) (g1 : BitVec 4) : Bool :=
  if cfg.wssParityOddOk then wssParity g1 == 1#1 else wssParity g1 == 0#1

/-- One step of the top-down division by `x^6 + x + 1`: bit j + 6 is tested and cleared
(44_wss_cpr1204.md R212). -/
def cprStep (r : BitVec 26) (j : Nat) : BitVec 26 :=
  if r.getLsbD (j + 6) then r ^^^ (0x43#26 <<< j) else r

/-- The whole division, from `j = 19` down to `j = 0` (44_wss_cpr1204.md R212). -/
def cprReduce (r : BitVec 26) : BitVec 26 :=
  [19, 18, 17, 16, 15, 14, 13, 12, 11, 10, 9, 8, 7, 6, 5, 4, 3, 2, 1, 0].foldl cprStep r

/-- `cpr_rem(g)`: the 20-bit group below six one bits, reduced, low six bits (44_wss_cpr1204.md R212). -/
def cprRem (g : BitVec 20) : BitVec 6 := (cprReduce (0x3F#6 ++ g)).extractLsb' 0 6

end Sys2Proof.Machine
end

