-- ==== Sys2Proof/Machine/Tables.lean ====
section
/-!
DEFINITION. The default values of the configuration parameters (00_scope.md R7): the Hamming 8/4 table, the caption
character tables, the PAC row table and the two reading choices; and the names of the mnemonic codes.
-/

namespace Sys2Proof.Machine

/-- `H8[n]` is the Hamming 8/4 code byte of data nibble n (00_scope.md R13). -/
def hammingCode : Vector Byte 16 :=
  #v[0x15, 0x02, 0x49, 0x5E, 0x64, 0x73, 0x38, 0x2F,
     0xD0, 0xC7, 0x8C, 0x9B, 0xA1, 0xB6, 0xFD, 0xEA]

/-- The code byte of one nibble. -/
def ham8 (n : BitVec 4) : Byte := hammingCode[n.toNat]'(n.isLt)

/-- The default Hamming 8/4 decode: the nibble whose code byte is at most one bit away, if there is one
(00_scope.md R13). -/
def hammingDecode (b : Byte) : Option (BitVec 4) :=
  (hammingCode.toList.findIdx? (fun h => popcount (b ^^^ h) ≤ 1)).map (BitVec.ofNat 4)

/-- `hammingDecode` as the table `P_UNHAM8` is held in. -/
def defaultUnham8 : Vector (Option (BitVec 4)) 256 :=
  ⟨⟨(List.range 256).map (fun n => hammingDecode (BitVec.ofNat 8 n))⟩, by simp⟩

/-- Default `P_PAC_ROW`: rows 1..15, index 1 unassigned (41_caption.md R125). -/
def defaultPacRow : Vector (BitVec 4) 16 :=
  #v[11, 0, 1, 2, 3, 4, 12, 13, 14, 15, 5, 6, 7, 8, 9, 10]

/-- The basic character set: code c is U+00cc but for the ten codes listed (41_caption.md R122). -/
def basicCodePoint (c : Nat) : CodePoint :=
  match c with
  | 0x2A => 0xE1
  | 0x5C => 0xE9
  | 0x5E => 0xED
  | 0x5F => 0xF3
  | 0x60 => 0xFA
  | 0x7B => 0xE7
  | 0x7C => 0xF7
  | 0x7D => 0xD1
  | 0x7E => 0xF1
  | 0x7F => 0x25A0
  | c => BitVec.ofNat 21 c

/-- Default `P_CC_BASIC`; entry i is code 0x20 + i (41_caption.md R122). -/
def defaultCcBasic : Vector CodePoint 96 :=
  ⟨⟨(List.range 96).map (fun i => basicCodePoint (0x20 + i))⟩, by simp⟩

/-- Default `P_CC_SPECIAL` (41_caption.md R123). -/
def defaultCcSpecial : Vector CodePoint 16 :=
  #v[0xAE, 0xB0, 0xBD, 0xBF, 0x2122, 0xA2, 0xA3, 0x266A,
     0xE0, 0x20, 0xE8, 0xE2, 0xEA, 0xEE, 0xF4, 0xFB]

/-- Default `P_CC_EXT2` (41_caption.md R124). -/
def defaultCcExt2 : Vector CodePoint 32 :=
  #v[0xC1, 0xC9, 0xD3, 0xDA, 0xDC, 0xFC, 0x2018, 0xA1,
     0x2A, 0x27, 0x2014, 0xA9, 0x2120, 0x2022, 0x201C, 0x201D,
     0xC0, 0xC2, 0xC7, 0xC8, 0xCA, 0xCB, 0xEB, 0xCE,
     0xCF, 0xEF, 0xD4, 0xD9, 0xF9, 0xDB, 0xAB, 0xBB]

/-- Default `P_CC_EXT3` (41_caption.md R124). -/
def defaultCcExt3 : Vector CodePoint 32 :=
  #v[0xC3, 0xE3, 0xCD, 0xCC, 0xEC, 0xD2, 0xF2, 0xD5,
     0xF5, 0x7B, 0x7D, 0x5C, 0x5E, 0x5F, 0x7C, 0x7E,
     0xC4, 0xE4, 0xD6, 0xF6, 0xDF, 0xA5, 0xA4, 0xA6,
     0xC5, 0xE5, 0xD8, 0xF8, 0x250C, 0x2510, 0x2514, 0x2518]

/-- Every parameter at the default of 00_scope.md R7. -/
def defaultConfig : Config where
  unham8 := defaultUnham8
  pacRow := defaultPacRow
  ccBasic := defaultCcBasic
  ccSpecial := defaultCcSpecial
  ccExt2 := defaultCcExt2
  ccExt3 := defaultCcExt3
  wssParityOddOk := false
  idlCh7Lbra := true

/-- The 16 miscellaneous control mnemonics, codes 0..15 (41_caption.md R126). -/
def controlNames : List String :=
  ["RCL", "BS", "AOF", "AON", "DER", "RU2", "RU3", "RU4",
   "FON", "RDC", "TR", "RTD", "EDM", "CR", "ENM", "EOC"]

/-- The 16 background mnemonics, codes 16..31 (41_caption.md R127). -/
def backgroundNames : List String :=
  ["BWO", "BWS", "BGO", "BGS", "BBO", "BBS", "BCO", "BCS",
   "BRO", "BRS", "BYO", "BYS", "BMO", "BMS", "BAO", "BAS"]

/-- The names of mnemonic codes 0..37; codes 38..63 have none and are never emitted (41_caption.md R126, R127). -/
def mnemonicNames : List String :=
  controlNames ++ backgroundNames ++ ["TO1", "TO2", "TO3", "BT", "FA", "FAU"]

/-- The name of a mnemonic code, for a reader of records; no rule reads it. -/
def mnemonicName (code : BitVec 6) : Option String := mnemonicNames[code.toNat]?

end Sys2Proof.Machine
end

