-- ==== Sys2Proof/Machine/Operands.lean ====
section
/-!
DEFINITION. Every operand form of the spec: the fields of the request word (30_encoding.md R70), of a caption pair
(R76), of the VPS payload (R77), of the CPR1204 group (R79) and of the Teletext address and IDL header (R89, R90).
`v.extractLsb' lo n` is the n-bit field whose lowest bit is bit lo, and `a ++ b` is the spec's `{a, b}`
(00_scope.md R8).
-/

namespace Sys2Proof.Machine

/-- `rev8(b)`: bit i of the result is bit 7 - i of b (00_scope.md R11). -/
def rev8 (b : Byte) : Byte :=
  b.extractLsb' 0 1 ++ b.extractLsb' 1 1 ++ b.extractLsb' 2 1 ++ b.extractLsb' 3 1 ++
    b.extractLsb' 4 1 ++ b.extractLsb' 5 1 ++ b.extractLsb' 6 1 ++ b.extractLsb' 7 1

/-- Bit i of a value as a Bool. -/
abbrev bitOf {w : Nat} (v : BitVec w) (i : Nat) : Bool := v.getLsbD i

/-- A payload buffer that starts with the listed bytes and holds zeros after them. -/
def padPayload (bytes : List Byte) : Payload := Vector.ofFn (fun i => bytes.getD i 0)

/-! ### The request word (30_encoding.md R70) -/

/-- `TAG`, bits [3:0]. -/
def reqTag (w : BitVec 32) : BitVec 4 := w.extractLsb' 0 4

/-- `LEN`, bits [9:4]. -/
def reqLen (w : BitVec 32) : BitVec 6 := w.extractLsb' 4 6

/-- `RSVD`, bits [15:10], ignored by every operation (R74). -/
def reqRsvd (w : BitVec 32) : BitVec 6 := w.extractLsb' 10 6

/-- `LINE`, bits [31:16]. -/
def reqLine (w : BitVec 32) : Line := w.extractLsb' 16 16

/-- A request word from its fields, with `RSVD` zero, as software should write it (R74). -/
def reqWord (line : Line) (len : BitVec 6) (tag : BitVec 4) : BitVec 32 := line ++ 0#6 ++ len ++ tag

/-- The payload width of a service tag, `WIDTH[t]` (40_dispatch.md R100); `none` for the NOP tags 0 and 7..15. -/
def tagWidth (tag : BitVec 4) : Option (BitVec 6) :=
  match tag with
  | 1 => some 42
  | 2 => some 2
  | 3 => some 2
  | 4 => some 13
  | 5 => some 2
  | 6 => some 3
  | _ => none

/-- Line numbers 0..1023 are legal (40_dispatch.md R103). -/
abbrev lineInRange (line : Line) : Bool := line ≤ 1023#16

/-- The first 13 bytes of the data buffer (20_memory.md R51). -/
def vpsBytes (d : Payload) : VpsPayload :=
  #v[d[0], d[1], d[2], d[3], d[4], d[5], d[6], d[7], d[8], d[9], d[10], d[11], d[12]]

/-! ### Caption pairs (30_encoding.md R76) -/

/-- The caption word `W = {0, c1, 0, c2}`. -/
def ccWord (c1 c2 : Char7) : BitVec 16 := 0#1 ++ c1 ++ 0#1 ++ c2

/-- `ch = c1[3]`, the data channel. -/
def ccChannel (c1 : Char7) : BitVec 1 := c1.extractLsb' 3 1

/-- `a7 = c1[2:0]`. -/
def ccA7 (c1 : Char7) : BitVec 3 := c1.extractLsb' 0 3

/-- `f = c1[0]`, the field parity of the miscellaneous control codes. -/
def ccField (c1 : Char7) : BitVec 1 := c1.extractLsb' 0 1

/-- The PAC row index `{c1[2:0], c2[5]}` (41_caption.md R125). -/
def pacIndex (c1 c2 : Char7) : BitVec 4 := ccA7 c1 ++ c2.extractLsb' 5 1

/-- The PAC row, 0 when unassigned (41_caption.md R125, R133). -/
def pacRow (cfg : Config) (c1 c2 : Char7) : BitVec 4 := cfg.pacRow[(pacIndex c1 c2).toNat]'((pacIndex c1 c2).isLt)

/-- `attr = c2[3:1]`: a colour, or a PAC column divided by four. -/
def ccAttr (c2 : Char7) : BitVec 3 := c2.extractLsb' 1 3

/-- `u = c2[0]`, underline. -/
def ccUnderline (c2 : Char7) : BitVec 1 := c2.extractLsb' 0 1

/-- `P_CC_BASIC(c)`; only called for `c >= 0x20` (41_caption.md R122). -/
def basicChar (cfg : Config) (c : Char7) : CodePoint := (cfg.ccBasic[c.toNat - 0x20]?).getD 0

/-- `P_CC_SPECIAL[c2[3:0]]` (41_caption.md R123, R137). -/
def specialChar (cfg : Config) (c2 : Char7) : CodePoint :=
  cfg.ccSpecial[(c2.extractLsb' 0 4).toNat]'((c2.extractLsb' 0 4).isLt)

/-- `P_CC_EXT2` for `a7 = 2`, else `P_CC_EXT3`, at index `c2 - 0x20`; only called for `0x20 <= c2 <= 0x3F`, where that
index is `c2[4:0]` (41_caption.md R124, R138). -/
def extendedChar (cfg : Config) (c1 c2 : Char7) : CodePoint :=
  let table := if ccA7 c1 == 2 then cfg.ccExt2 else cfg.ccExt3
  table[(c2.extractLsb' 0 5).toNat]'((c2.extractLsb' 0 5).isLt)

/-! ### The VPS payload (30_encoding.md R77) -/

/-- The label byte with its bits reversed (42_vps.md R163). -/
def vpsLabelByte (p : VpsPayload) : Byte := rev8 p[1]

/-- The label flag, the top bit of the reversed byte (42_vps.md R163). -/
def vpsFlag (p : VpsPayload) : Bool := bitOf (vpsLabelByte p) 7

/-- A label character that is not in 0x20..0x7E becomes '.', 0x2E (42_vps.md R160, R163). -/
def printable (c : Char7) : Char7 := if 0x20#7 ≤ c ∧ c ≤ 0x7E#7 then c else 0x2E#7

/-- The character a VPS packet appends (42_vps.md R160). -/
def vpsChar (p : VpsPayload) : Char7 := printable ((vpsLabelByte p).extractLsb' 0 7)

/-- `pcs = p[2][7:6]` (42_vps.md R164). -/
def vpsPcs (p : VpsPayload) : BitVec 2 := p[2].extractLsb' 6 2

/-- `cni_assemble(p)` (42_vps.md R165). -/
def vpsCni (p : VpsPayload) : BitVec 12 :=
  p[10].extractLsb' 0 2 ++ p[11].extractLsb' 6 2 ++ p[8].extractLsb' 6 2 ++ p[11].extractLsb' 0 6

/-- `cni_no_id` (42_vps.md R166). -/
def vpsNoId (cni : BitVec 12) : Bool := cni == 0x000#12 || cni == 0xFFF#12

/-- `pil_assemble(p)` (42_vps.md R167). -/
def vpsPil (p : VpsPayload) : BitVec 20 := p[8].extractLsb' 0 6 ++ p[9] ++ p[10].extractLsb' 2 6

/-! ### The CPR1204 group (30_encoding.md R79) -/

/-- `g = (p[0] << 12) | (p[1] << 4) | p[2]`: `p[2][7:4]` and `p[1][3:0]` are ORed (44_wss_cpr1204.md R211, R216). -/
def cprGroup (b0 b1 b2 : Byte) : BitVec 20 :=
  (b0.setWidth 20 <<< 12) ||| (b1.setWidth 20 <<< 4) ||| b2.setWidth 20

/-! ### Teletext (30_encoding.md R89, R90) -/

/-- `magazine = A[2:0]`, 0 read as 8 (45_ttx_addressing.md R233). -/
def ttxMagazine (a : BitVec 8) : BitVec 4 := if a.extractLsb' 0 3 = 0#3 then 8#4 else 0#1 ++ a.extractLsb' 0 3

/-- `packet = A[7:3]` (45_ttx_addressing.md R234). -/
def ttxPacket (a : BitVec 8) : BitVec 5 := a.extractLsb' 3 5

/-- `channel = A[3:0]` (45_ttx_addressing.md R238). -/
def idlChannel (a : BitVec 8) : BitVec 4 := a.extractLsb' 0 4

/-- The 40 bytes after the address: `data[i] = p[2 + i]` (30_encoding.md R84). -/
def ttxData (p : Payload) : TtxData := p.drop 2

/-- `spa_length = ial[2:0]` (30_encoding.md R90). -/
def idlSpaLength (ial : BitVec 4) : BitVec 3 := ial.extractLsb' 0 3

/-- The first `sl` of the bytes a service packet address can stand in, `p[4]` on (30_encoding.md R90). -/
def idlSpaBytes (p : Payload) (sl : BitVec 3) : List Byte := [p[4], p[5], p[6], p[7], p[8], p[9]].take sl.toNat

/-- Nibbles combined in increasing significance, the first the lowest (46_idl.md R255, R257). -/
def nibblesValue (w : Nat) : List (BitVec 4) → BitVec w
  | [] => 0
  | n :: ns => n.setWidth w ||| (nibblesValue w ns <<< 4)

end Sys2Proof.Machine
end

