-- ==== Sys2Proof/Syntax.lean ====
section
/-!
DEFINITION. What can be presented to the block and what it runs: the request and the input ports (10_state.md R32),
the words the rows of spec/opcode_table.json match (30_encoding.md R94), and `Instr`, one constructor per row.

A row of format REQ or PIN is an operation of the block. A row of another format is the case a sub-decoder selects
inside an operation; its operands are what the sub-decoder has in hand when it selects the case (the line of the
request, the stripped pair, the payload, the address).
-/

namespace Sys2Proof

/-- A request: the 32-bit word `REQ` and the data buffer (10_state.md R32). -/
structure Request where
  word : BitVec 32
  data : Payload
deriving DecidableEq, Repr

/-- The input ports in one step of the host (10_state.md R32). `req` is present when `REQ_VALID` is 1; `raddr` is
present when a readout is presented on `RADDR`. -/
structure Ports where
  porst : Bool
  srst : Bool
  req : Option Request
  raddr : Option (BitVec 8)
deriving DecidableEq, Repr

/-- Nothing presented. -/
def Ports.idle : Ports := ⟨false, false, none, none⟩

/-- A word some row of the opcode table matches, by the row's `format`, with the context its sub-decoder has
(30_encoding.md R94). -/
inductive Code where
  /-- REQ: the request word and the data buffer. -/
  | req (r : Request)
  /-- PIN: the control inputs. -/
  | pin (porst srst : Bool) (raddr : Option (BitVec 8))
  /-- CCRAW: the two raw caption bytes. -/
  | ccraw (line : Line) (b0 b1 : Byte)
  /-- CC: the caption word W of R76. -/
  | cc (line : Line) (w : BitVec 16)
  /-- TTXADDR: the address value, decoded from the first two bytes of the payload. -/
  | ttxaddr (line : Line) (p : Payload)
  /-- IDLCH: the channel, the low four bits of the address. -/
  | idlch (line : Line) (a : BitVec 8) (p : Payload)
  /-- IDLFT: the format type. -/
  | idlft (line : Line) (a : BitVec 8) (ft : BitVec 4) (p : Payload)
  /-- IDLIAL: the interpretation and address length. -/
  | idlial (line : Line) (a : BitVec 8) (ft ial : BitVec 4) (p : Payload)
deriving DecidableEq, Repr

/-- One constructor per row of spec/opcode_table.json. -/
inductive Instr where
  -- REQ rows
  | nop (line : Line)
  | decTtx (line : Line) (p : Payload)
  | decCc525 (line : Line) (b0 b1 : Byte)
  | decCc625 (line : Line) (b0 b1 : Byte)
  | decVps (line : Line) (p : VpsPayload)
  | decWss625 (line : Line) (b0 b1 : Byte)
  | decCpr1204 (line : Line) (b0 b1 b2 : Byte)
  | nopRsv7 (line : Line)
  /-- Tags 8..15; `t` is the low three bits of the tag. -/
  | nopRsv8to15 (line : Line) (t : BitVec 3)
  | reqSizeMismatch (line : Line) (tag : BitVec 4) (len : BitVec 6)
  -- PIN rows
  | srst
  | rd (raddr : BitVec 8)
  | porst
  -- CCRAW rows
  | ccParityError (line : Line) (b0 b1 : Byte)
  | ccParityOk (line : Line) (b0 b1 : Byte)
  -- CC rows
  | ccNull (line : Line) (c1 c2 : Char7)
  | ccText (line : Line) (c1 c2 : Char7)
  | ccInvalidC2 (line : Line) (c1 c2 : Char7)
  | ccPacUnassigned (line : Line) (c1 c2 : Char7)
  | ccPac (line : Line) (c1 c2 : Char7)
  | ccBackground (line : Line) (c1 c2 : Char7)
  | ccMidrow (line : Line) (c1 c2 : Char7)
  | ccSpecial (line : Line) (c1 c2 : Char7)
  | ccExtended (line : Line) (c1 c2 : Char7)
  | ccControl (line : Line) (c1 c2 : Char7)
  | ccReservedA76 (line : Line) (c1 c2 : Char7)
  | ccTo1 (line : Line) (c1 c2 : Char7)
  | ccTo2 (line : Line) (c1 c2 : Char7)
  | ccTo3 (line : Line) (c1 c2 : Char7)
  | ccBt (line : Line) (c1 c2 : Char7)
  | ccFa (line : Line) (c1 c2 : Char7)
  | ccFau (line : Line) (c1 c2 : Char7)
  | ccUnknown (line : Line) (c1 c2 : Char7)
  -- TTXADDR rows
  | ttxHammingError (line : Line) (b0 b1 : Byte)
  | ttx830 (line : Line) (p : Payload)
  | ttxIdl (line : Line) (a : BitVec 8) (p : Payload)
  | ttx (line : Line) (a : BitVec 8) (p : Payload)
  -- IDLCH rows
  | idlCh0 (line : Line) (a : BitVec 8) (p : Payload)
  | idlDatavideo5or13 (line : Line) (a : BitVec 8) (p : Payload)
  | idlDatavideo6or14 (line : Line) (a : BitVec 8) (p : Payload)
  | idlFormatted8to11 (line : Line) (a : BitVec 8) (p : Payload)
  | idlFormatted15 (line : Line) (a : BitVec 8) (p : Payload)
  | idlLbra4or12 (line : Line) (a : BitVec 8) (p : Payload)
  | idlLbra7 (line : Line) (a : BitVec 8) (p : Payload)
  | idlUnclassified (line : Line) (a : BitVec 8) (p : Payload)
  -- IDLFT rows
  | idlFormatA (line : Line) (a : BitVec 8) (ft : BitVec 4) (p : Payload)
  | idlFormatB (line : Line) (a : BitVec 8) (ft : BitVec 4) (p : Payload)
  | idlFtOther (line : Line) (a : BitVec 8) (ft : BitVec 4) (p : Payload)
  -- IDLIAL rows
  | idlSpaReserved (line : Line) (a : BitVec 8) (ft ial : BitVec 4) (p : Payload)
  | idlSpa (line : Line) (a : BitVec 8) (ft ial : BitVec 4) (p : Payload)
deriving DecidableEq, Repr

end Sys2Proof
end

