-- ==== Sys2Proof/WellFormed.lean ====
section
/-!
DEFINITION. Which instructions can be selected: the operand ranges the rules give for each row ("Operands:" of each
rule), independently of the masks Decode.lean reads. A row of a sub-decoder is selected only inside a request whose
line passed the check of 40_dispatch.md R103. Two rows depend on a configuration parameter (CC_PAC_UNASSIGNED on
`P_PAC_ROW`, IDL_LBRA_7 on `P_IDL_CH7_LBRA`), and the Teletext rows on `P_UNHAM8`.
-/

namespace Sys2Proof

open Sys2Proof.Machine

/-- `1 <= c1 <= 0x1F`: a control pair (41_caption.md R129). -/
abbrev isControlC1 (c1 : Char7) : Bool := 1#7 ≤ c1 && c1 ≤ 0x1F#7

/-- `lo <= c2 <= hi`. -/
abbrev c2Within (c2 lo hi : Char7) : Bool := lo ≤ c2 && c2 ≤ hi

/-- The address bytes of the payload decode to `a` (45_ttx_addressing.md R231). -/
abbrev addressIs (cfg : Config) (a : BitVec 8) (p : Payload) : Bool := unham16 cfg p[0] p[1] == some a

/-- A request that reached the IDL interpreter: line in range, packet 30 or 31, address as decoded, channel as
listed (46_idl.md R250, R251). -/
abbrev idlContext (cfg : Config) (line : Line) (a : BitVec 8) (p : Payload) (channels : List (BitVec 4)) : Bool :=
  lineInRange line && addressIs cfg a p && a.extractLsb' 4 4 == 0xF#4 && channels.contains (idlChannel a)

/-- The channels whose payload has a format type (46_idl.md R251). -/
def formattedChannels : List (BitVec 4) := [8, 9, 10, 11, 15]

/-- The format type was read from `p[2]` of a formatted channel (46_idl.md R256). -/
abbrev formatContext (cfg : Config) (line : Line) (a : BitVec 8) (ft : BitVec 4) (p : Payload) : Bool :=
  idlContext cfg line a p formattedChannels && unham8 cfg p[2] == some ft

/-- The interpretation and address length was read from `p[3]` of a Format A packet (46_idl.md R257). -/
abbrev ialContext (cfg : Config) (line : Line) (a : BitVec 8) (ft ial : BitVec 4) (p : Payload) : Bool :=
  formatContext cfg line a ft p && !(ft.getLsbD 0) && unham8 cfg p[3] == some ial

/-- The operand ranges of each row of the opcode table. -/
def WellFormed (cfg : Config) : Instr → Bool
  | .nop _ => true
  | .decTtx _ _ => true
  | .decCc525 _ _ _ => true
  | .decCc625 _ _ _ => true
  | .decVps _ _ => true
  | .decWss625 _ _ _ => true
  | .decCpr1204 _ _ _ _ => true
  | .nopRsv7 _ => true
  | .nopRsv8to15 _ _ => true
  | .reqSizeMismatch _ tag len => (tagWidth tag).isSome && tagWidth tag != some len
  | .srst => true
  | .rd _ => true
  | .porst => true
  | .ccParityError line b0 b1 => lineInRange line && ((unpar8 b0).isNone || (unpar8 b1).isNone)
  | .ccParityOk line b0 b1 => lineInRange line && (unpar8 b0).isSome && (unpar8 b1).isSome
  | .ccNull line c1 _ => lineInRange line && c1 == 0#7
  | .ccText line c1 _ => lineInRange line && 0x20#7 ≤ c1
  | .ccInvalidC2 line c1 c2 => lineInRange line && isControlC1 c1 && c2 < 0x20#7
  | .ccPacUnassigned line c1 c2 => lineInRange line && isControlC1 c1 && 0x40#7 ≤ c2 && pacRow cfg c1 c2 == 0#4
  | .ccPac line c1 c2 => lineInRange line && isControlC1 c1 && 0x40#7 ≤ c2 && pacRow cfg c1 c2 != 0#4
  | .ccBackground line c1 c2 => lineInRange line && isControlC1 c1 && ccA7 c1 == 0#3 && c2Within c2 0x20 0x2F
  | .ccMidrow line c1 c2 => lineInRange line && isControlC1 c1 && ccA7 c1 == 1#3 && c2Within c2 0x20 0x2F
  | .ccSpecial line c1 c2 => lineInRange line && isControlC1 c1 && ccA7 c1 == 1#3 && c2Within c2 0x30 0x3F
  | .ccExtended line c1 c2 =>
    lineInRange line && isControlC1 c1 && (ccA7 c1 == 2#3 || ccA7 c1 == 3#3) && c2Within c2 0x20 0x3F
  | .ccControl line c1 c2 =>
    lineInRange line && isControlC1 c1 && (ccA7 c1 == 4#3 || ccA7 c1 == 5#3) && c2Within c2 0x20 0x2F
  | .ccReservedA76 line c1 c2 => lineInRange line && isControlC1 c1 && ccA7 c1 == 6#3 && c2Within c2 0x20 0x3F
  | .ccTo1 line c1 c2 => lineInRange line && isControlC1 c1 && ccA7 c1 == 7#3 && c2 == 0x21#7
  | .ccTo2 line c1 c2 => lineInRange line && isControlC1 c1 && ccA7 c1 == 7#3 && c2 == 0x22#7
  | .ccTo3 line c1 c2 => lineInRange line && isControlC1 c1 && ccA7 c1 == 7#3 && c2 == 0x23#7
  | .ccBt line c1 c2 => lineInRange line && isControlC1 c1 && ccA7 c1 == 7#3 && c2 == 0x2D#7
  | .ccFa line c1 c2 => lineInRange line && isControlC1 c1 && ccA7 c1 == 7#3 && c2 == 0x2E#7
  | .ccFau line c1 c2 => lineInRange line && isControlC1 c1 && ccA7 c1 == 7#3 && c2 == 0x2F#7
  | .ccUnknown line c1 c2 =>
    lineInRange line && isControlC1 c1 &&
      ((ccA7 c1 == 0#3 && c2Within c2 0x30 0x3F) ||
       ((ccA7 c1 == 4#3 || ccA7 c1 == 5#3) && c2Within c2 0x30 0x3F) ||
       (ccA7 c1 == 7#3 && c2Within c2 0x20 0x3F &&
         !([0x21#7, 0x22#7, 0x23#7, 0x2D#7, 0x2E#7, 0x2F#7].contains c2)))
  | .ttxHammingError line b0 b1 => lineInRange line && (unham16 cfg b0 b1).isNone
  | .ttx830 line p => lineInRange line && addressIs cfg 0xF0#8 p
  | .ttxIdl line a p => lineInRange line && addressIs cfg a p && 30#5 ≤ ttxPacket a && a != 0xF0#8
  | .ttx line a p => lineInRange line && addressIs cfg a p && ttxPacket a < 30#5
  | .idlCh0 line a p => idlContext cfg line a p [0]
  | .idlDatavideo5or13 line a p => idlContext cfg line a p [5, 13]
  | .idlDatavideo6or14 line a p => idlContext cfg line a p [6, 14]
  | .idlFormatted8to11 line a p => idlContext cfg line a p [8, 9, 10, 11]
  | .idlFormatted15 line a p => idlContext cfg line a p [15]
  | .idlLbra4or12 line a p => idlContext cfg line a p [4, 12]
  | .idlLbra7 line a p => idlContext cfg line a p [7] && cfg.idlCh7Lbra
  | .idlUnclassified line a p => idlContext cfg line a p (if cfg.idlCh7Lbra then [1, 2, 3] else [1, 2, 3, 7])
  | .idlFormatA line a ft p => formatContext cfg line a ft p && !(ft.getLsbD 0)
  | .idlFormatB line a ft p => formatContext cfg line a ft p && ft.extractLsb' 0 2 == 1#2
  | .idlFtOther line a ft p => formatContext cfg line a ft p && ft.extractLsb' 0 2 == 3#2
  | .idlSpaReserved line a ft ial p => ialContext cfg line a ft ial p && idlSpaLength ial == 7#3
  | .idlSpa line a ft ial p => ialContext cfg line a ft ial p && idlSpaLength ial != 7#3

end Sys2Proof
end

