-- ==== Sys2Proof/Decode.lean ====
section
/-!
DEFINITION. The decoder, row by row from spec/opcode_table.json (30_encoding.md R94: within one format the rows are
tried in ascending priority and the first match wins), and the encoder beside it. The decoder is total; it rejects by
name the two words that are no word of their format.
-/

namespace Sys2Proof

open Sys2Proof.Machine

/-- Why a word is no instruction. No word that the step takes from the ports is rejected (30_encoding.md R91). -/
inductive Reject where
  /-- A PIN word in which no control input is asserted and no readout is presented: no operation (R333). -/
  | nothingPresented
  /-- A CC word with bit 15 or bit 7 set; `W = {0, c1, 0, c2}` has both zero (30_encoding.md R76). -/
  | notACaptionWord
deriving DecidableEq, Repr

/-- The REQ rows, priorities 1 to 10. `RSVD` and the bytes past the tag's width are not read (R74, 20_memory.md R51). -/
def decodeReq (r : Request) : Instr :=
  let w := r.word
  let d := r.data
  let line := reqLine w
  if rowMatches w 0xF 0x0 then .nop line
  else if rowMatches w 0x3FF 0x2A1 then .decTtx line d
  else if rowMatches w 0x3FF 0x22 then .decCc525 line d[0] d[1]
  else if rowMatches w 0x3FF 0x23 then .decCc625 line d[0] d[1]
  else if rowMatches w 0x3FF 0xD4 then .decVps line (vpsBytes d)
  else if rowMatches w 0x3FF 0x25 then .decWss625 line d[0] d[1]
  else if rowMatches w 0x3FF 0x36 then .decCpr1204 line d[0] d[1] d[2]
  else if rowMatches w 0xF 0x7 then .nopRsv7 line
  else if rowMatches w 0x8 0x8 then .nopRsv8to15 line (w.extractLsb' 0 3)
  else .reqSizeMismatch line (reqTag w) (reqLen w)

/-- The PIN rows: PORST (priority 0), SRST (1), RD (2). -/
def decodePin (porst srst : Bool) (raddr : Option (BitVec 8)) : Except Reject Instr :=
  if porst then .ok .porst
  else if srst then .ok .srst
  else
    match raddr with
    | some addr => .ok (.rd addr)
    | none => .error .nothingPresented

/-- The CCRAW rows: CC_PARITY_ERROR by its condition, else CC_PARITY_OK. -/
def decodeCcraw (line : Line) (b0 b1 : Byte) : Instr :=
  if (unpar8 b0).isNone || (unpar8 b1).isNone then .ccParityError line b0 b1
  else .ccParityOk line b0 b1

/-- The CC rows, priorities 1 to 18. CC_PAC_UNASSIGNED is the row whose condition decides "over every W with
W[6] = 1" (its note in the table), since its mask and match are those of the default `P_PAC_ROW` only. -/
def decodeCc (cfg : Config) (line : Line) (w : BitVec 16) : Except Reject Instr :=
  let c1 : Char7 := w.extractLsb' 8 7
  let c2 : Char7 := w.extractLsb' 0 7
  if !(rowMatches w 0x8080 0x0) then .error .notACaptionWord
  else if rowMatches w 0x7F00 0x0 then .ok (.ccNull line c1 c2)
  else if 0x20#7 ≤ c1 then .ok (.ccText line c1 c2)
  else if rowMatches w 0x60 0x0 then .ok (.ccInvalidC2 line c1 c2)
  else if rowMatches w 0x40 0x40 && pacRow cfg c1 c2 == 0#4 then .ok (.ccPacUnassigned line c1 c2)
  else if rowMatches w 0x40 0x40 then .ok (.ccPac line c1 c2)
  else if rowMatches w 0x770 0x20 then .ok (.ccBackground line c1 c2)
  else if rowMatches w 0x770 0x120 then .ok (.ccMidrow line c1 c2)
  else if rowMatches w 0x770 0x130 then .ok (.ccSpecial line c1 c2)
  else if rowMatches w 0x660 0x220 then .ok (.ccExtended line c1 c2)
  else if rowMatches w 0x670 0x420 then .ok (.ccControl line c1 c2)
  else if rowMatches w 0x760 0x620 then .ok (.ccReservedA76 line c1 c2)
  else if rowMatches w 0x77F 0x721 then .ok (.ccTo1 line c1 c2)
  else if rowMatches w 0x77F 0x722 then .ok (.ccTo2 line c1 c2)
  else if rowMatches w 0x77F 0x723 then .ok (.ccTo3 line c1 c2)
  else if rowMatches w 0x77F 0x72D then .ok (.ccBt line c1 c2)
  else if rowMatches w 0x77F 0x72E then .ok (.ccFa line c1 c2)
  else if rowMatches w 0x77F 0x72F then .ok (.ccFau line c1 c2)
  else .ok (.ccUnknown line c1 c2)

/-- The TTXADDR rows, priorities 1 to 4. -/
def decodeTtxaddr (cfg : Config) (line : Line) (p : Payload) : Instr :=
  match unham16 cfg p[0] p[1] with
  | none => .ttxHammingError line p[0] p[1]
  | some a =>
    if rowMatches a 0xFF 0xF0 then .ttx830 line p
    else if rowMatches a 0xF0 0xF0 then .ttxIdl line a p
    else .ttx line a p

/-- The IDLCH rows, priorities 1 to 8, on the channel `A[3:0]`. -/
def decodeIdlch (cfg : Config) (line : Line) (a : BitVec 8) (p : Payload) : Instr :=
  let ch := idlChannel a
  if rowMatches ch 0xF 0x0 then .idlCh0 line a p
  else if rowMatches ch 0x7 0x5 then .idlDatavideo5or13 line a p
  else if rowMatches ch 0x7 0x6 then .idlDatavideo6or14 line a p
  else if rowMatches ch 0xC 0x8 then .idlFormatted8to11 line a p
  else if rowMatches ch 0xF 0xF then .idlFormatted15 line a p
  else if rowMatches ch 0x7 0x4 then .idlLbra4or12 line a p
  else if rowMatches ch 0xF 0x7 && cfg.idlCh7Lbra then .idlLbra7 line a p
  else .idlUnclassified line a p

/-- The IDLFT rows, priorities 1 to 3, on the format type. -/
def decodeIdlft (line : Line) (a : BitVec 8) (ft : BitVec 4) (p : Payload) : Instr :=
  if rowMatches ft 0x1 0x0 then .idlFormatA line a ft p
  else if rowMatches ft 0x3 0x1 then .idlFormatB line a ft p
  else .idlFtOther line a ft p

/-- The IDLIAL rows, priorities 1 and 2, on `ial`. -/
def decodeIdlial (line : Line) (a : BitVec 8) (ft ial : BitVec 4) (p : Payload) : Instr :=
  if rowMatches ial 0x7 0x7 then .idlSpaReserved line a ft ial p
  else .idlSpa line a ft ial p

/-- The whole decoder: a word of any format, under a configuration. -/
def decode (cfg : Config) : Code → Except Reject Instr
  | .req r => .ok (decodeReq r)
  | .pin porst srst raddr => decodePin porst srst raddr
  | .ccraw line b0 b1 => .ok (decodeCcraw line b0 b1)
  | .cc line w => decodeCc cfg line w
  | .ttxaddr line p => .ok (decodeTtxaddr cfg line p)
  | .idlch line a p => .ok (decodeIdlch cfg line a p)
  | .idlft line a ft p => .ok (decodeIdlft line a ft p)
  | .idlial line a ft ial p => .ok (decodeIdlial line a ft ial p)

/-! ### The encoder -/

/-- A request in the syntax of 30_encoding.md R92: `REQ tag, len, line, [bytes]`, the rest of the buffer zero. -/
def mkRequest (line : Line) (tag : BitVec 4) (len : BitVec 6) (bytes : List Byte) : Code :=
  .req ⟨reqWord line len tag, padPayload bytes⟩

/-- The word of a well-formed instruction (30_encoding.md R70, R76, R92). -/
def encode : Instr → Code
  | .nop line => mkRequest line 0 0 []
  | .decTtx line p => .req ⟨reqWord line 42 1, p⟩
  | .decCc525 line b0 b1 => mkRequest line 2 2 [b0, b1]
  | .decCc625 line b0 b1 => mkRequest line 3 2 [b0, b1]
  | .decVps line p => mkRequest line 4 13 p.toList
  | .decWss625 line b0 b1 => mkRequest line 5 2 [b0, b1]
  | .decCpr1204 line b0 b1 b2 => mkRequest line 6 3 [b0, b1, b2]
  | .nopRsv7 line => mkRequest line 7 0 []
  | .nopRsv8to15 line t => mkRequest line (1#1 ++ t) 0 []
  | .reqSizeMismatch line tag len => mkRequest line tag len []
  | .srst => .pin false true none
  | .rd raddr => .pin false false (some raddr)
  | .porst => .pin true false none
  | .ccParityError line b0 b1 => .ccraw line b0 b1
  | .ccParityOk line b0 b1 => .ccraw line b0 b1
  | .ccNull line c1 c2 => .cc line (ccWord c1 c2)
  | .ccText line c1 c2 => .cc line (ccWord c1 c2)
  | .ccInvalidC2 line c1 c2 => .cc line (ccWord c1 c2)
  | .ccPacUnassigned line c1 c2 => .cc line (ccWord c1 c2)
  | .ccPac line c1 c2 => .cc line (ccWord c1 c2)
  | .ccBackground line c1 c2 => .cc line (ccWord c1 c2)
  | .ccMidrow line c1 c2 => .cc line (ccWord c1 c2)
  | .ccSpecial line c1 c2 => .cc line (ccWord c1 c2)
  | .ccExtended line c1 c2 => .cc line (ccWord c1 c2)
  | .ccControl line c1 c2 => .cc line (ccWord c1 c2)
  | .ccReservedA76 line c1 c2 => .cc line (ccWord c1 c2)
  | .ccTo1 line c1 c2 => .cc line (ccWord c1 c2)
  | .ccTo2 line c1 c2 => .cc line (ccWord c1 c2)
  | .ccTo3 line c1 c2 => .cc line (ccWord c1 c2)
  | .ccBt line c1 c2 => .cc line (ccWord c1 c2)
  | .ccFa line c1 c2 => .cc line (ccWord c1 c2)
  | .ccFau line c1 c2 => .cc line (ccWord c1 c2)
  | .ccUnknown line c1 c2 => .cc line (ccWord c1 c2)
  | .ttxHammingError line b0 b1 => .ttxaddr line (padPayload [b0, b1])
  | .ttx830 line p => .ttxaddr line p
  | .ttxIdl line _ p => .ttxaddr line p
  | .ttx line _ p => .ttxaddr line p
  | .idlCh0 line a p => .idlch line a p
  | .idlDatavideo5or13 line a p => .idlch line a p
  | .idlDatavideo6or14 line a p => .idlch line a p
  | .idlFormatted8to11 line a p => .idlch line a p
  | .idlFormatted15 line a p => .idlch line a p
  | .idlLbra4or12 line a p => .idlch line a p
  | .idlLbra7 line a p => .idlch line a p
  | .idlUnclassified line a p => .idlch line a p
  | .idlFormatA line a ft p => .idlft line a ft p
  | .idlFormatB line a ft p => .idlft line a ft p
  | .idlFtOther line a ft p => .idlft line a ft p
  | .idlSpaReserved line a ft ial p => .idlial line a ft ial p
  | .idlSpa line a ft ial p => .idlial line a ft ial p

/-! ### The words of the opcode table as numbers -/

/-- The address bytes of an address value under the default Hamming code, and zeros after them
(45_ttx_addressing.md R239). -/
def addressPayload (a : BitVec 8) : Payload := padPayload [ham8 (a.extractLsb' 0 4), ham8 (a.extractLsb' 4 4)]

/-- The word a number of the opcode table stands for. The table numbers the words of eight formats and a number does
not say its format: more than 16 bits are a REQ word with a zero data buffer, 9 to 16 bits a CC word, and of the
8-bit numbers 0 is the REQ word NOP, 1 the PIN word SRST, 2 to 15 an IDL channel (of address 0xF0 + channel) and
the rest a Teletext address, each with zero bytes after the address (DESIGN CHOICE: assumption 7). -/
def tableCode (nbits w : Nat) : Code :=
  if 16 < nbits then .req ⟨BitVec.ofNat 32 w, padPayload []⟩
  else if 8 < nbits then .cc 0 (BitVec.ofNat 16 w)
  else if w = 0 then .req ⟨0, padPayload []⟩
  else if w = 1 then .pin false true none
  else if w < 16 then .idlch 0 (0xF#4 ++ BitVec.ofNat 4 w) (addressPayload (0xF#4 ++ BitVec.ofNat 4 w))
  else .ttxaddr 0 (addressPayload (BitVec.ofNat 8 w))

/-- The instruction the decoder reads from a number of the opcode table, under the default configuration. -/
def decodeTableWord (nbits w : Nat) : Option Instr :=
  match decode defaultConfig (tableCode nbits w) with
  | .ok i => some i
  | .error _ => none

/-- The presentation that makes the block reach a word: the word itself for REQ and PIN, and for a word of a
sub-decoder the request that carries it (raw caption bytes with odd parity; a Teletext payload). -/
def carrier : Code → Ports
  | .req r => ⟨false, false, some r, none⟩
  | .pin porst srst raddr => ⟨porst, srst, none, raddr⟩
  | .ccraw line b0 b1 => ⟨false, false, some ⟨reqWord line 2 2, padPayload [b0, b1]⟩, none⟩
  | .cc line w =>
    ⟨false, false, some ⟨reqWord line 2 2,
      padPayload [addParity (w.extractLsb' 8 7), addParity (w.extractLsb' 0 7)]⟩, none⟩
  | .ttxaddr line p => ⟨false, false, some ⟨reqWord line 42 1, p⟩, none⟩
  | .idlch line _ p => ⟨false, false, some ⟨reqWord line 42 1, p⟩, none⟩
  | .idlft line _ _ p => ⟨false, false, some ⟨reqWord line 42 1, p⟩, none⟩
  | .idlial line _ _ _ p => ⟨false, false, some ⟨reqWord line 42 1, p⟩, none⟩

end Sys2Proof
end

