-- ==== Sys2Proof/Machine/Record.lean ====
section
/-!
DEFINITION. The response record of a decode step (30_encoding.md R80 to R86), one constructor per kind, with the
numeric codes of kinds, caption kinds, IDL kinds, PIL kinds and error causes.
-/

namespace Sys2Proof.Machine

/-- The error causes of 60_exceptions.md R301; codes 7..15 are never produced. -/
inductive Cause where
  | sizeMismatch
  | lineRange
  | parityError
  | hammingError
  /-- Never in an Error record: it is `crc_ok = false` (R308). -/
  | crcError
  /-- Never in an Error record: it is an `Unknown` or `Malformed` value (R309). -/
  | unsupportedVariant
deriving DecidableEq, Repr

/-- The position part of a PAC: exactly one of a column 0, 4, .., 28 and a colour (30_encoding.md R82). -/
inductive PacPosition where
  | column (col : BitVec 5)
  | color (col : BitVec 3)
deriving DecidableEq, Repr

/-- `CcKind` (30_encoding.md R82). -/
inductive CcKind where
  | null
  /-- `cp2 = 0` means no second character. -/
  | text (cp1 cp2 : CodePoint)
  | pac (row : BitVec 4) (underline : BitVec 1) (position : PacPosition)
  | midrow (color : BitVec 3) (underline : BitVec 1)
  | special (cp : CodePoint)
  | extended (cp : CodePoint)
  | control (mnem : BitVec 6) (f : Option (BitVec 1))
  | unknown
deriving DecidableEq, Repr

/-- `pil_kind` (42_vps.md R168). -/
inductive PilKind where
  | date
  | timerControl
  | inhibitTerminate
  | interruption
  | continue
  | noTime
deriving DecidableEq, Repr

/-- Why an IDL packet is malformed (30_encoding.md R85). -/
inductive MalformedReason where
  | channel0
  | spaLengthReserved
deriving DecidableEq, Repr

/-- `IdlKind` (30_encoding.md R85). -/
inductive IdlKind where
  | lowBitRateAudio
  | datavideo (pa : BitVec 12)
  | formatA (ft ial : BitVec 4) (spaLength : BitVec 3) (spa : BitVec 24)
  | formatB (ft : BitVec 4) (an : BitVec 2) (ai : BitVec 4)
  | unclassified (ft : Option (BitVec 4))
  | malformed (reason : MalformedReason) (ft ial : Option (BitVec 4))
deriving DecidableEq, Repr

/-- The fields of a `Vps` record (30_encoding.md R83). -/
structure VpsRecord where
  line : Line
  cni : BitVec 12
  cniNoId : Bool
  pcs : BitVec 2
  pty : BitVec 8
  pil : BitVec 20
  pilKind : PilKind
  day : BitVec 5
  month : BitVec 4
  hour : BitVec 5
  minute : BitVec 6
  labelChar : Char7
  labelRestart : Bool
  prevLabel : List Char7
deriving DecidableEq, Repr

/-- The fields of a `Wss` record (30_encoding.md R83). -/
structure WssRecord where
  line : Line
  format : BitVec 3
  cameraOrFilm : Bool
  standardOrMaCp : Bool
  helperSubcarrier : Bool
  reservedB7 : Bool
  teletextSubtitles : Bool
  subtitles : BitVec 2
  openSubtitles : Bool
  surround : Bool
  copyright : Bool
  copyRestricted : Bool
  parityOk : Bool
deriving DecidableEq, Repr

/-- The fields of a `WssCpr` record (30_encoding.md R83). -/
structure CprRecord where
  line : Line
  crcOk : Bool
  group : BitVec 14
  raw : BitVec 20
  remainder : BitVec 6
deriving DecidableEq, Repr

/-- The response record `RSP` (30_encoding.md R80). -/
inductive Record where
  | noOp (line : Line)
  | cc (line : Line) (ch : BitVec 1) (c1 c2 : Char7) (cmd : CcKind)
  | vps (v : VpsRecord)
  | wss (v : WssRecord)
  | wssCpr (v : CprRecord)
  | ttx (line : Line) (magazine : BitVec 4) (packet : BitVec 5) (data : TtxData)
  | ttx830 (line : Line) (data : TtxData)
  | idl (line : Line) (magazine : BitVec 4) (packet : BitVec 5) (channel : BitVec 4) (sub : IdlKind) (data : TtxData)
  /-- `site` is the field `where` of R86. -/
  | error (line : Line) (cause : Cause) (site : BitVec 4) (aux : BitVec 16)
deriving DecidableEq, Repr

end Sys2Proof.Machine
end

