-- ==== Sys2Proof/Machine/Codes.lean ====
section
/-!
DEFINITION. The numeric codes of the record's parts (30_encoding.md R80, R82, R83, R85; 60_exceptions.md R301), and
the line a record carries.
-/

namespace Sys2Proof.Machine

/-- The cause code, of `Error.cause` and of `FAULT_CAUSE` (60_exceptions.md R301). -/
def causeCode : Cause → BitVec 4
  | .sizeMismatch => 1
  | .lineRange => 2
  | .parityError => 3
  | .hammingError => 4
  | .crcError => 5
  | .unsupportedVariant => 6

/-- The record kind code (30_encoding.md R80). -/
def recordKind : Record → BitVec 4
  | .noOp _ => 0
  | .cc _ _ _ _ _ => 1
  | .vps _ => 2
  | .wss _ => 3
  | .wssCpr _ => 4
  | .ttx _ _ _ _ => 5
  | .ttx830 _ _ => 6
  | .idl _ _ _ _ _ _ => 7
  | .error _ _ _ _ => 8

/-- The caption kind code (30_encoding.md R82). -/
def ccKindCode : CcKind → BitVec 3
  | .null => 0
  | .text _ _ => 1
  | .pac _ _ _ => 2
  | .midrow _ _ => 3
  | .special _ => 4
  | .extended _ => 5
  | .control _ _ => 6
  | .unknown => 7

/-- The IDL kind code (30_encoding.md R85). -/
def idlKindCode : IdlKind → BitVec 3
  | .lowBitRateAudio => 0
  | .datavideo _ => 1
  | .formatA _ _ _ _ => 2
  | .formatB _ _ _ => 3
  | .unclassified _ => 4
  | .malformed _ _ _ => 5

/-- The reason code of a malformed IDL packet (30_encoding.md R85). -/
def malformedCode : MalformedReason → BitVec 4
  | .channel0 => 1
  | .spaLengthReserved => 2

/-- The `pil_kind` code (30_encoding.md R83). -/
def pilKindCode : PilKind → BitVec 3
  | .date => 0
  | .timerControl => 1
  | .inhibitTerminate => 2
  | .interruption => 3
  | .continue => 4
  | .noTime => 5

/-- The line every record carries (30_encoding.md R80). -/
def recordLine : Record → Line
  | .noOp line => line
  | .cc line _ _ _ _ => line
  | .vps v => v.line
  | .wss v => v.line
  | .wssCpr v => v.line
  | .ttx line _ _ _ => line
  | .ttx830 line _ => line
  | .idl line _ _ _ _ _ => line
  | .error line _ _ _ => line

/-- The kinds that write the channel memory (41_caption.md R121). -/
def ccRecognised : CcKind → Bool
  | .pac _ _ _ => true
  | .midrow _ _ => true
  | .special _ => true
  | .extended _ => true
  | .control _ _ => true
  | .null => false
  | .text _ _ => false
  | .unknown => false

end Sys2Proof.Machine
end

