-- ==== Sys2Proof/Machine/State.lean ====
section
/-!
DEFINITION. The state of the block: the registers of 10_state.md R33, all of them, and the model's own fields (the
configuration the block was built with, the host's input sequence and its index, and the outputs of the last step).
Plain data throughout.
-/

namespace Sys2Proof.Machine

/-- The state the step reads and writes. -/
structure State where
  /-- Model's own: the configuration parameters of 00_scope.md R7. No operation writes it (assumption 1). -/
  cfg : Config
  /-- `FAULT`, the sticky fault status (R34). -/
  fault : BitVec 1
  /-- `FAULT_CAUSE`, the code of the first fault since power-on reset (R34). -/
  faultCause : BitVec 4
  /-- `CC_CH`, the caption channel memory (R35). -/
  ccCh : BitVec 1
  /-- `VPS_LBUF[0..15]`, the accumulating label buffer (R36). -/
  vpsLbuf : Vector Char7 16
  /-- `VPS_LPOS`, where the next character is written (R36). -/
  vpsLpos : BitVec 4
  /-- `VPS_LLEN`, the characters written since the last flush, saturating at 16 (R36). -/
  vpsLlen : BitVec 5
  /-- `VPS_PREV[0..15]`, the previous completed label (R36). -/
  vpsPrev : Vector Char7 16
  /-- `VPS_PLEN`, the length of the previous completed label (R36). -/
  vpsPlen : BitVec 5
  /-- Model's own: what the host presents on the input ports, in order (R32; assumption 2). -/
  inputs : List Ports
  /-- The index of the next operation in the host's sequence, the "pc" of R31. -/
  pc : Nat
  /-- `RSP`: the record the last step emitted, if it emitted one (R32). -/
  rsp : Option Record
  /-- `RDATA`: the readout data of the last step, if it was a readout (R32). -/
  rdata : Option (BitVec 8)
deriving DecidableEq, Repr

/-- The reasons the machine stops with a fault: none. The spec's hard fault is a sticky status after which "the block
keeps accepting and processing operations normally" (60_exceptions.md R302), and the block has no trap (R300). -/
inductive Fault
deriving DecidableEq, Repr

/-- The reasons the machine refuses an instruction. "The block refuses no input" (93_implementation_defined.md). -/
inductive Refusal where
  /-- Raised by an arm of `exec` whose instruction has no meaning yet; every arm has one, so by none. Safe. -/
  | notModelled (mnemonic : String)
  /-- Raised by `step` for a word that is no operation; the step takes no such word from the ports, so never. Safe. -/
  | noOperation
deriving DecidableEq, Repr

/-- The state right after power-on reset: every register 0 (70_reset_and_hazards.md R330). The model's own fields: the
default configuration of 00_scope.md R7, nothing presented, no operation done, no output. -/
def State.reset : State where
  cfg := defaultConfig
  fault := 0
  faultCause := 0
  ccCh := 0
  vpsLbuf := Vector.replicate 16 0
  vpsLpos := 0
  vpsLlen := 0
  vpsPrev := Vector.replicate 16 0
  vpsPlen := 0
  inputs := []
  pc := 0
  rsp := none
  rdata := none

end Sys2Proof.Machine
end

