-- ==== Sys2Proof/Machine/Ops.lean ====
section
/-!
DEFINITION. The shared operations over the state: the response port, the hard fault and the soft error, the line
check, the channel memory, the label registers, the two resets and the readout map. The block has no memory
(20_memory.md R50, R59), so there is no memory operation; the payload is an operand of the instruction.
-/

namespace Sys2Proof.Machine

/-- The outcome of a step of this machine. -/
abbrev Out := Host.Outcome State Fault Refusal

/-! ### The outputs -/

/-- `emit`: the response record of the step (00_scope.md R10, 30_encoding.md R80). -/
def emit (r : Record) (s : State) : State := { s with rsp := some r, rdata := none }

/-- A step that emits no record and no readout data (40_dispatch.md R108, 70_reset_and_hazards.md R330). -/
def silent (s : State) : State := { s with rsp := none, rdata := none }

/-- `RDATA <- v`, without a record (40_dispatch.md R112). -/
def answer (v : BitVec 8) (s : State) : State := { s with rsp := none, rdata := some v }

/-! ### Faults and soft errors -/

/-- The fault status after a fault of this cause: the first cause stays (60_exceptions.md R302). -/
def latchFault (cause : Cause) (s : State) : State :=
  { s with fault := 1, faultCause := if s.fault = 0 then causeCode cause else s.faultCause }

/-- `raise Fault(cause, aux)`: the hard contract fault (60_exceptions.md R302). It is this block's only exception
entry, and there is no return from it (R300, R313). -/
def raiseFault (line : Line) (cause : Cause) (aux : BitVec 16) (s : State) : State :=
  emit (.error line cause 0 aux) (latchFault cause s)

/-- `return Error(cause, where, aux)`: a soft error, which changes no register (60_exceptions.md R303). -/
def softError (line : Line) (cause : Cause) (site : BitVec 4) (aux : BitVec 16) (s : State) : State :=
  emit (.error line cause site aux) s

/-- The line check of the decode tags: a line above 1023 is a `LineRange` fault and the service decoder does not run
(40_dispatch.md R103). -/
def withLine (line : Line) (s : State) (service : Out) : Out :=
  if lineInRange line then service else .next (raiseFault line .lineRange line s)

/-! ### The caption channel memory (41_caption.md R121) -/

/-- A recognised command: the record and `CC_CH` take the channel `c1[3]`. -/
def ccCommand (line : Line) (c1 c2 : Char7) (cmd : CcKind) (s : State) : State :=
  emit (.cc line (ccChannel c1) c1 c2 cmd) { s with ccCh := ccChannel c1 }

/-- An `Unknown` pair: the record takes the channel `c1[3]`, `CC_CH` is not written. -/
def ccUnrecognised (line : Line) (c1 c2 : Char7) (s : State) : State :=
  emit (.cc line (ccChannel c1) c1 c2 .unknown) s

/-- Null and Text: the record takes the channel from `CC_CH`, which is not written. -/
def ccChannelless (line : Line) (c1 c2 : Char7) (cmd : CcKind) (s : State) : State :=
  emit (.cc line s.ccCh c1 c2 cmd) s

/-! ### The VPS label registers -/

/-- `label_flush()` (42_vps.md R161). -/
def labelFlush (s : State) : State :=
  { s with vpsPrev := s.vpsLbuf, vpsPlen := s.vpsLlen, vpsLlen := 0, vpsLpos := 0 }

/-- `label_append(ch)` (42_vps.md R162). -/
def labelAppend (ch : Char7) (s : State) : State :=
  { s with
    vpsLbuf := s.vpsLbuf.set s.vpsLpos.toNat ch s.vpsLpos.isLt
    vpsLpos := s.vpsLpos + 1
    vpsLlen := if s.vpsLlen < 16 then s.vpsLlen + 1 else 16 }

/-- The label step of a VPS packet: flush when flagged, then append (42_vps.md R160). -/
def labelStep (flag : Bool) (ch : Char7) (s : State) : State :=
  labelAppend ch (if flag then labelFlush s else s)

/-- `VPS_PREV[0 .. VPS_PLEN-1]` (42_vps.md R169). -/
def prevLabel (s : State) : List Char7 := s.vpsPrev.toList.take s.vpsPlen.toNat

/-! ### Resets -/

/-- The registers a session reset writes: all but `FAULT` and `FAULT_CAUSE` (40_dispatch.md R108). -/
def clearSession (s : State) : State :=
  { s with
    ccCh := 0
    vpsLbuf := Vector.replicate 16 0
    vpsLpos := 0
    vpsLlen := 0
    vpsPrev := Vector.replicate 16 0
    vpsPlen := 0 }

/-- The fault status after power-on reset (70_reset_and_hazards.md R330). -/
def clearFault (s : State) : State := { s with fault := 0, faultCause := 0 }

/-! ### The readout (10_state.md R38) -/

/-- `readout_map(RADDR)`; an unlisted address reads 0x00. -/
def readout (s : State) (addr : BitVec 8) : BitVec 8 :=
  if addr = 0x00#8 then s.faultCause ++ 0#3 ++ s.fault
  else if addr = 0x01#8 then 0#7 ++ s.ccCh
  else if addr = 0x02#8 then 0#4 ++ s.vpsLpos
  else if addr = 0x03#8 then 0#3 ++ s.vpsLlen
  else if addr = 0x04#8 then 0#3 ++ s.vpsPlen
  else if addr.extractLsb' 4 4 = 1#4 then
    0#1 ++ s.vpsLbuf[(addr.extractLsb' 0 4).toNat]'((addr.extractLsb' 0 4).isLt)
  else if addr.extractLsb' 4 4 = 2#4 then
    0#1 ++ s.vpsPrev[(addr.extractLsb' 0 4).toNat]'((addr.extractLsb' 0 4).isLt)
  else 0x00#8

end Sys2Proof.Machine
end

