-- ==== Sys2Proof/Machine/Caption.lean ====
section
/-!
DEFINITION. The Closed-Caption command interpreter (41_caption.md): one meaning per command class (the CC rows), the
decision order R129 that selects among them, and the parity check (the CCRAW rows) before it.
-/

namespace Sys2Proof.Machine

/-- CC_NULL (R130). -/
def execCcNull (line : Line) (c1 c2 : Char7) (s : State) : Out :=
  .next (ccChannelless line c1 c2 .null s)

/-- CC_TEXT: a second byte below 0x20 gives no second character (R131). -/
def execCcText (line : Line) (c1 c2 : Char7) (s : State) : Out :=
  .next (ccChannelless line c1 c2
    (.text (basicChar s.cfg c1) (if 0x20#7 ≤ c2 then basicChar s.cfg c2 else 0)) s)

/-- CC_INVALID_C2 (R132). -/
def execCcInvalidC2 (line : Line) (c1 c2 : Char7) (s : State) : Out :=
  .next (ccUnrecognised line c1 c2 s)

/-- CC_PAC_UNASSIGNED (R134). -/
def execCcPacUnassigned (line : Line) (c1 c2 : Char7) (s : State) : Out :=
  .next (ccUnrecognised line c1 c2 s)

/-- The position part of a PAC: `c2[4]` selects a column, `c2[3:1] * 4`, or a colour, `c2[3:1]` (R133). -/
def pacPosition (c2 : Char7) : PacPosition :=
  if c2.getLsbD 4 then .column ((ccAttr c2).setWidth 5 * 4) else .color (ccAttr c2)

/-- CC_PAC; an unassigned row goes to R134 (R133). -/
def execCcPac (line : Line) (c1 c2 : Char7) (s : State) : Out :=
  if pacRow s.cfg c1 c2 = 0 then execCcPacUnassigned line c1 c2 s
  else .next (ccCommand line c1 c2 (.pac (pacRow s.cfg c1 c2) (ccUnderline c2) (pacPosition c2)) s)

/-- CC_BACKGROUND: mnemonic `16 + c2[3:0]` (R135). -/
def execCcBackground (line : Line) (c1 c2 : Char7) (s : State) : Out :=
  .next (ccCommand line c1 c2 (.control (16 + (c2.extractLsb' 0 4).setWidth 6) none) s)

/-- CC_MIDROW (R136). -/
def execCcMidrow (line : Line) (c1 c2 : Char7) (s : State) : Out :=
  .next (ccCommand line c1 c2 (.midrow (ccAttr c2) (ccUnderline c2)) s)

/-- CC_SPECIAL (R137). -/
def execCcSpecial (line : Line) (c1 c2 : Char7) (s : State) : Out :=
  .next (ccCommand line c1 c2 (.special (specialChar s.cfg c2)) s)

/-- CC_EXTENDED (R138). -/
def execCcExtended (line : Line) (c1 c2 : Char7) (s : State) : Out :=
  .next (ccCommand line c1 c2 (.extended (extendedChar s.cfg c1 c2)) s)

/-- CC_CONTROL: mnemonic `c2[3:0]`, tagged with the field parity (R139). -/
def execCcControl (line : Line) (c1 c2 : Char7) (s : State) : Out :=
  .next (ccCommand line c1 c2 (.control ((c2.extractLsb' 0 4).setWidth 6) (some (ccField c1))) s)

/-- CC_RESERVED_A7_6 (R140). -/
def execCcReservedA76 (line : Line) (c1 c2 : Char7) (s : State) : Out :=
  .next (ccUnrecognised line c1 c2 s)

/-- CC_TO1, mnemonic 32 (R141). -/
def execCcTo1 (line : Line) (c1 c2 : Char7) (s : State) : Out :=
  .next (ccCommand line c1 c2 (.control 32 none) s)

/-- CC_TO2, mnemonic 33 (R141). -/
def execCcTo2 (line : Line) (c1 c2 : Char7) (s : State) : Out :=
  .next (ccCommand line c1 c2 (.control 33 none) s)

/-- CC_TO3, mnemonic 34 (R141). -/
def execCcTo3 (line : Line) (c1 c2 : Char7) (s : State) : Out :=
  .next (ccCommand line c1 c2 (.control 34 none) s)

/-- CC_BT, mnemonic 35 (R142). -/
def execCcBt (line : Line) (c1 c2 : Char7) (s : State) : Out :=
  .next (ccCommand line c1 c2 (.control 35 none) s)

/-- CC_FA, mnemonic 36 (R143). -/
def execCcFa (line : Line) (c1 c2 : Char7) (s : State) : Out :=
  .next (ccCommand line c1 c2 (.control 36 none) s)

/-- CC_FAU, mnemonic 37 (R144). -/
def execCcFau (line : Line) (c1 c2 : Char7) (s : State) : Out :=
  .next (ccCommand line c1 c2 (.control 37 none) s)

/-- CC_UNKNOWN (R145). -/
def execCcUnknown (line : Line) (c1 c2 : Char7) (s : State) : Out :=
  .next (ccUnrecognised line c1 c2 s)

/-- The case table of R129 for `0x20 <= c2 <= 0x3F`, by `a7`. -/
def runCcTable (line : Line) (c1 c2 : Char7) (s : State) : Out :=
  match ccA7 c1 with
  | 0 => if c2 < 0x30#7 then execCcBackground line c1 c2 s else execCcUnknown line c1 c2 s
  | 1 => if c2 < 0x30#7 then execCcMidrow line c1 c2 s else execCcSpecial line c1 c2 s
  | 2 => execCcExtended line c1 c2 s
  | 3 => execCcExtended line c1 c2 s
  | 4 => if c2 < 0x30#7 then execCcControl line c1 c2 s else execCcUnknown line c1 c2 s
  | 5 => if c2 < 0x30#7 then execCcControl line c1 c2 s else execCcUnknown line c1 c2 s
  | 6 => execCcReservedA76 line c1 c2 s
  | _ =>
    if c2 = 0x21#7 then execCcTo1 line c1 c2 s
    else if c2 = 0x22#7 then execCcTo2 line c1 c2 s
    else if c2 = 0x23#7 then execCcTo3 line c1 c2 s
    else if c2 = 0x2D#7 then execCcBt line c1 c2 s
    else if c2 = 0x2E#7 then execCcFa line c1 c2 s
    else if c2 = 0x2F#7 then execCcFau line c1 c2 s
    else execCcUnknown line c1 c2 s

/-- `cc_interpret(c1, c2)`, first match wins (R129). -/
def runCcPair (line : Line) (c1 c2 : Char7) (s : State) : Out :=
  if c1 = 0 then execCcNull line c1 c2 s
  else if 0x20#7 ≤ c1 then execCcText line c1 c2 s
  else if c2 < 0x20#7 then execCcInvalidC2 line c1 c2 s
  else if 0x40#7 ≤ c2 then execCcPac line c1 c2 s
  else runCcTable line c1 c2 s

/-- CC_PARITY_ERROR: `where` says which byte failed, `aux` holds the raw bytes (R120). -/
def execCcParityError (line : Line) (b0 b1 : Byte) (s : State) : Out :=
  let site : BitVec 4 :=
    (if (unpar8 b0).isNone then 1 else 0) ||| (if (unpar8 b1).isNone then 2 else 0)
  .next (softError line .parityError site (b0 ++ b1) s)

/-- CC_PARITY_OK: strip the parity bits and interpret the pair (R120, R129). -/
def execCcParityOk (line : Line) (b0 b1 : Byte) (s : State) : Out :=
  runCcPair line (b0.extractLsb' 0 7) (b1.extractLsb' 0 7) s

/-- `cc_decode(b0, b1)`: both bytes are checked before either is interpreted (R120). -/
def runCaption (line : Line) (b0 b1 : Byte) (s : State) : Out :=
  match unpar8 b0, unpar8 b1 with
  | some _, some _ => execCcParityOk line b0 b1 s
  | _, _ => execCcParityError line b0 b1 s

/-- DEC.CC525 (40_dispatch.md R106). -/
def execDecCc525 (line : Line) (b0 b1 : Byte) (s : State) : Out :=
  withLine line s (runCaption line b0 b1 s)

/-- DEC.CC625 (40_dispatch.md R107). -/
def execDecCc625 (line : Line) (b0 b1 : Byte) (s : State) : Out :=
  withLine line s (runCaption line b0 b1 s)

end Sys2Proof.Machine
end

