-- ==== Sys2Proof/Machine/Dispatcher.lean ====
section
/-!
DEFINITION. The service dispatcher's own operations (40_dispatch.md): NOP, the size mismatch, SRST, RD and PORST.
-/

namespace Sys2Proof.Machine

/-- NOP, tag 0 (R104). -/
def execNop (line : Line) (s : State) : Out := .next (emit (.noOp line) s)

/-- NOP.RSV7, the reserved tag 7 (R104). -/
def execNopRsv7 (line : Line) (s : State) : Out := .next (emit (.noOp line) s)

/-- NOP.RSV8_15, the reserved tags 8..15; the tag's low bits are not used (R104). -/
def execNopRsv8to15 (line : Line) (_t : BitVec 3) (s : State) : Out := .next (emit (.noOp line) s)

/-- REQ.SIZE_MISMATCH: `aux[11:8] = TAG`, `aux[5:0] = LEN`, other bits 0 (R102). -/
def execReqSizeMismatch (line : Line) (tag : BitVec 4) (len : BitVec 6) (s : State) : Out :=
  .next (raiseFault line .sizeMismatch (0#4 ++ tag ++ 0#2 ++ len) s)

/-- SRST (R108). -/
def execSrst (s : State) : Out := .next (silent (clearSession s))

/-- RD (R112). -/
def execRd (raddr : BitVec 8) (s : State) : Out := .next (answer (readout s raddr) s)

/-- PORST (70_reset_and_hazards.md R330). -/
def execPorst (s : State) : Out := .next (silent (clearFault (clearSession s)))

end Sys2Proof.Machine
end

