-- ==== Sys2Proof/Machine/Idl.lean ====
section
/-!
DEFINITION. The IDL channel multiplexer (46_idl.md): the rows of formats IDLIAL, IDLFT and IDLCH, innermost first,
then the selection of a channel class.
-/

namespace Sys2Proof.Machine

/-- The `Idl` record of an address, with the payload passed through (46_idl.md R250). -/
def idlRecord (line : Line) (a : BitVec 8) (p : Payload) (sub : IdlKind) : Record :=
  .idl line (ttxMagazine a) (ttxPacket a) (idlChannel a) sub (ttxData p)

/-- A Hamming failure inside an IDL header: the Error record replaces the Idl record, with `aux = A`
(46_idl.md R250, R262). -/
def idlHammingError (line : Line) (a : BitVec 8) (site : BitVec 4) (s : State) : State :=
  softError line .hammingError site (a.setWidth 16) s

/-- IDL_SPA: the service packet address of a Format A packet (46_idl.md R257). -/
def execIdlSpa (line : Line) (a : BitVec 8) (ft ial : BitVec 4) (p : Payload) (s : State) : Out :=
  match unhamAll s.cfg (idlSpaBytes p (idlSpaLength ial)) with
  | none => .next (idlHammingError line a 5 s)
  | some ns =>
    .next (emit (idlRecord line a p (.formatA ft ial (idlSpaLength ial) (nibblesValue 24 ns))) s)

/-- IDL_SPA_RESERVED: `spa_length = 7`, no byte after `ial` is examined (46_idl.md R258). -/
def execIdlSpaReserved (line : Line) (a : BitVec 8) (ft ial : BitVec 4) (p : Payload) (s : State) : Out :=
  .next (emit (idlRecord line a p (.malformed .spaLengthReserved (some ft) (some ial))) s)

/-- IDL_FORMAT_A: `format_a(p, ft)` (46_idl.md R257). -/
def execIdlFormatA (line : Line) (a : BitVec 8) (ft : BitVec 4) (p : Payload) (s : State) : Out :=
  match unham8 s.cfg p[3] with
  | none => .next (idlHammingError line a 4 s)
  | some ial =>
    if idlSpaLength ial = 7 then execIdlSpaReserved line a ft ial p s
    else execIdlSpa line a ft ial p s

/-- IDL_FORMAT_B: `format_b(p, ft)` (46_idl.md R259). -/
def execIdlFormatB (line : Line) (a : BitVec 8) (ft : BitVec 4) (p : Payload) (s : State) : Out :=
  match unham8 s.cfg p[3] with
  | none => .next (idlHammingError line a 6 s)
  | some ai => .next (emit (idlRecord line a p (.formatB ft (ft.extractLsb' 2 2) ai)) s)

/-- IDL_FT_OTHER: the payload passed through unclassified (46_idl.md R260). -/
def execIdlFtOther (line : Line) (a : BitVec 8) (ft : BitVec 4) (p : Payload) (s : State) : Out :=
  .next (emit (idlRecord line a p (.unclassified (some ft))) s)

/-- `formatted(p)`: read the format type and run its rule (46_idl.md R256). -/
def runFormatted (line : Line) (a : BitVec 8) (p : Payload) (s : State) : Out :=
  match unham8 s.cfg p[2] with
  | none => .next (idlHammingError line a 3 s)
  | some ft =>
    if ft.getLsbD 0 = false then execIdlFormatA line a ft p s
    else if ft.extractLsb' 0 2 = 1 then execIdlFormatB line a ft p s
    else execIdlFtOther line a ft p s

/-- `datavideo(p)`: the 12-bit packet address (46_idl.md R255). -/
def runDatavideo (line : Line) (a : BitVec 8) (p : Payload) (s : State) : Out :=
  match unhamAll s.cfg [p[3], p[4], p[5]] with
  | none => .next (idlHammingError line a 2 s)
  | some ns => .next (emit (idlRecord line a p (.datavideo (nibblesValue 12 ns))) s)

/-- IDL_CH0 (46_idl.md R253). -/
def execIdlCh0 (line : Line) (a : BitVec 8) (p : Payload) (s : State) : Out :=
  .next (emit (idlRecord line a p (.malformed .channel0 none none)) s)

/-- IDL_DATAVIDEO_5_13 (46_idl.md R255). -/
def execIdlDatavideo5or13 (line : Line) (a : BitVec 8) (p : Payload) (s : State) : Out :=
  runDatavideo line a p s

/-- IDL_DATAVIDEO_6_14 (46_idl.md R255). -/
def execIdlDatavideo6or14 (line : Line) (a : BitVec 8) (p : Payload) (s : State) : Out :=
  runDatavideo line a p s

/-- IDL_FORMATTED_8_11 (46_idl.md R256). -/
def execIdlFormatted8to11 (line : Line) (a : BitVec 8) (p : Payload) (s : State) : Out :=
  runFormatted line a p s

/-- IDL_FORMATTED_15 (46_idl.md R256). -/
def execIdlFormatted15 (line : Line) (a : BitVec 8) (p : Payload) (s : State) : Out :=
  runFormatted line a p s

/-- IDL_LBRA_4_12: the payload passed through verbatim (46_idl.md R254). -/
def execIdlLbra4or12 (line : Line) (a : BitVec 8) (p : Payload) (s : State) : Out :=
  .next (emit (idlRecord line a p .lowBitRateAudio) s)

/-- IDL_LBRA_7 (46_idl.md R252, R254). -/
def execIdlLbra7 (line : Line) (a : BitVec 8) (p : Payload) (s : State) : Out :=
  .next (emit (idlRecord line a p .lowBitRateAudio) s)

/-- IDL_UNCLASSIFIED (46_idl.md R261). -/
def execIdlUnclassified (line : Line) (a : BitVec 8) (p : Payload) (s : State) : Out :=
  .next (emit (idlRecord line a p (.unclassified none)) s)

/-- `idl_decode(p, A, mag, pkt)`: by channel class, in the order of the rule (46_idl.md R250). -/
def runIdl (line : Line) (a : BitVec 8) (p : Payload) (s : State) : Out :=
  let ch := idlChannel a
  if ch = 0 then execIdlCh0 line a p s
  else if ch = 5 ∨ ch = 13 then execIdlDatavideo5or13 line a p s
  else if ch = 6 ∨ ch = 14 then execIdlDatavideo6or14 line a p s
  else if ch = 8 ∨ ch = 9 ∨ ch = 10 ∨ ch = 11 then execIdlFormatted8to11 line a p s
  else if ch = 15 then execIdlFormatted15 line a p s
  else if ch = 4 ∨ ch = 12 then execIdlLbra4or12 line a p s
  else if ch = 7 ∧ s.cfg.idlCh7Lbra = true then execIdlLbra7 line a p s
  else execIdlUnclassified line a p s

end Sys2Proof.Machine
end

