-- ==== Sys2Proof/Machine/Teletext.lean ====
section
/-!
DEFINITION. The Teletext magazine/packet address decoder (45_ttx_addressing.md): the TTXADDR rows, and the Teletext
step that selects among them.
-/

namespace Sys2Proof.Machine

/-- TTX_HAMMING_ERROR: an address byte is not correctable (45_ttx_addressing.md R232). -/
def execTtxHammingError (line : Line) (b0 b1 : Byte) (s : State) : Out :=
  .next (softError line .hammingError 1 (b0 ++ b1) s)

/-- TTX_830: packet 8/30, recognised by its address and passed through (45_ttx_addressing.md R236). -/
def execTtx830 (line : Line) (p : Payload) (s : State) : Out :=
  .next (emit (.ttx830 line (ttxData p)) s)

/-- TTX_IDL: any other packet 30 or 31 goes to the IDL interpreter (45_ttx_addressing.md R237). -/
def execTtxIdl (line : Line) (a : BitVec 8) (p : Payload) (s : State) : Out :=
  runIdl line a p s

/-- TTX: packets 0..29 of any magazine, passed through (45_ttx_addressing.md R235). -/
def execTtx (line : Line) (a : BitVec 8) (p : Payload) (s : State) : Out :=
  .next (emit (.ttx line (ttxMagazine a) (ttxPacket a) (ttxData p)) s)

/-- `ttx_decode(p)`, in the order of the rule: the address, then 8/30, then packets 30 and 31
(45_ttx_addressing.md R230). -/
def runTeletext (line : Line) (p : Payload) (s : State) : Out :=
  match unham16 s.cfg p[0] p[1] with
  | none => execTtxHammingError line p[0] p[1] s
  | some a =>
    if ttxMagazine a = 8 ∧ ttxPacket a = 30 then execTtx830 line p s
    else if ttxPacket a = 30 ∨ ttxPacket a = 31 then execTtxIdl line a p s
    else execTtx line a p s

/-- DEC.TTX (40_dispatch.md R105). -/
def execDecTtx (line : Line) (p : Payload) (s : State) : Out :=
  withLine line s (runTeletext line p s)

end Sys2Proof.Machine
end

