-- ==== Sys2Proof/Machine/Vps.lean ====
section
/-!
DEFINITION. The VPS packet extractor (42_vps.md).
-/

namespace Sys2Proof.Machine

/-- `pil_class(pil)`: the five reserved patterns on the whole 20-bit value (R168). -/
def pilClass (pil : BitVec 20) : PilKind :=
  if pil = 0x07FFF#20 then .timerControl
  else if pil = 0x07FBF#20 then .inhibitTerminate
  else if pil = 0x07F7F#20 then .interruption
  else if pil = 0x07F3F#20 then .continue
  else if pil = 0x7FFFF#20 then .noTime
  else .date

/-- The record of a VPS packet; the previous label is read after the step's label writes (R160, R169). -/
def vpsRecord (line : Line) (p : VpsPayload) (prev : List Char7) : VpsRecord where
  line := line
  cni := vpsCni p
  cniNoId := vpsNoId (vpsCni p)
  pcs := vpsPcs p
  pty := p[12]
  pil := vpsPil p
  pilKind := pilClass (vpsPil p)
  day := (vpsPil p).extractLsb' 15 5
  month := (vpsPil p).extractLsb' 11 4
  hour := (vpsPil p).extractLsb' 6 5
  minute := (vpsPil p).extractLsb' 0 6
  labelChar := vpsChar p
  labelRestart := vpsFlag p
  prevLabel := prev

/-- `vps_decode(p)` (R160). -/
def runVps (line : Line) (p : VpsPayload) (s : State) : Out :=
  let t := labelStep (vpsFlag p) (vpsChar p) s
  .next (emit (.vps (vpsRecord line p (prevLabel t))) t)

/-- DEC.VPS (40_dispatch.md R109). -/
def execDecVps (line : Line) (p : VpsPayload) (s : State) : Out :=
  withLine line s (runVps line p s)

end Sys2Proof.Machine
end

