-- ==== Sys2Proof/Machine/Wss.lean ====
section
/-!
DEFINITION. The WSS-625 bit-field decoder (43_wss625.md) and the WSS-CPR1204 CRC validator (44_wss_cpr1204.md).
Neither reads or writes a register.
-/

namespace Sys2Proof.Machine

/-- `wss_decode(p)` (43_wss625.md R190, R194, R195). -/
def wssRecord (cfg : Config) (line : Line) (b0 b1 : Byte) : WssRecord where
  line := line
  format := b0.extractLsb' 0 3
  cameraOrFilm := bitOf b0 4
  standardOrMaCp := bitOf b0 5
  helperSubcarrier := bitOf b0 6
  reservedB7 := bitOf b0 7
  teletextSubtitles := bitOf b1 0
  subtitles := b1.extractLsb' 1 2
  openSubtitles := b1.extractLsb' 1 2 != 0#2
  surround := bitOf b1 3
  copyright := bitOf b1 4
  copyRestricted := bitOf b1 5
  parityOk := wssParityOk cfg (b0.extractLsb' 0 4)

/-- DEC.WSS625 (40_dispatch.md R110). -/
def execDecWss625 (line : Line) (b0 b1 : Byte) (s : State) : Out :=
  withLine line s (.next (emit (.wss (wssRecord s.cfg line b0 b1)) s))

/-- `cpr_decode(p)` (44_wss_cpr1204.md R210, R215). -/
def cprRecord (line : Line) (b0 b1 b2 : Byte) : CprRecord where
  line := line
  crcOk := cprRem (cprGroup b0 b1 b2) == 0#6
  group := (cprGroup b0 b1 b2).extractLsb' 6 14
  raw := cprGroup b0 b1 b2
  remainder := cprRem (cprGroup b0 b1 b2)

/-- DEC.CPR1204 (40_dispatch.md R111). -/
def execDecCpr1204 (line : Line) (b0 b1 b2 : Byte) (s : State) : Out :=
  withLine line s (.next (emit (.wssCpr (cprRecord line b0 b1 b2)) s))

end Sys2Proof.Machine
end

