-- ==== Sys2Proof/Machine/Dispatch.lean ====
section
/-!
DEFINITION. The one dispatch: each constructor of `Instr` to its meaning.
-/

namespace Sys2Proof.Machine

def exec (i : Instr) (s : State) : Host.Outcome State Fault Refusal :=
  match i with
  | .nop line => Sys2Proof.Machine.execNop line s
  | .decTtx line p => Sys2Proof.Machine.execDecTtx line p s
  | .decCc525 line b0 b1 => Sys2Proof.Machine.execDecCc525 line b0 b1 s
  | .decCc625 line b0 b1 => Sys2Proof.Machine.execDecCc625 line b0 b1 s
  | .decVps line p => Sys2Proof.Machine.execDecVps line p s
  | .decWss625 line b0 b1 => Sys2Proof.Machine.execDecWss625 line b0 b1 s
  | .decCpr1204 line b0 b1 b2 => Sys2Proof.Machine.execDecCpr1204 line b0 b1 b2 s
  | .nopRsv7 line => Sys2Proof.Machine.execNopRsv7 line s
  | .nopRsv8to15 line t => Sys2Proof.Machine.execNopRsv8to15 line t s
  | .reqSizeMismatch line tag len => Sys2Proof.Machine.execReqSizeMismatch line tag len s
  | .srst => Sys2Proof.Machine.execSrst s
  | .rd raddr => Sys2Proof.Machine.execRd raddr s
  | .porst => Sys2Proof.Machine.execPorst s
  | .ccParityError line b0 b1 => Sys2Proof.Machine.execCcParityError line b0 b1 s
  | .ccParityOk line b0 b1 => Sys2Proof.Machine.execCcParityOk line b0 b1 s
  | .ccNull line c1 c2 => Sys2Proof.Machine.execCcNull line c1 c2 s
  | .ccText line c1 c2 => Sys2Proof.Machine.execCcText line c1 c2 s
  | .ccInvalidC2 line c1 c2 => Sys2Proof.Machine.execCcInvalidC2 line c1 c2 s
  | .ccPacUnassigned line c1 c2 => Sys2Proof.Machine.execCcPacUnassigned line c1 c2 s
  | .ccPac line c1 c2 => Sys2Proof.Machine.execCcPac line c1 c2 s
  | .ccBackground line c1 c2 => Sys2Proof.Machine.execCcBackground line c1 c2 s
  | .ccMidrow line c1 c2 => Sys2Proof.Machine.execCcMidrow line c1 c2 s
  | .ccSpecial line c1 c2 => Sys2Proof.Machine.execCcSpecial line c1 c2 s
  | .ccExtended line c1 c2 => Sys2Proof.Machine.execCcExtended line c1 c2 s
  | .ccControl line c1 c2 => Sys2Proof.Machine.execCcControl line c1 c2 s
  | .ccReservedA76 line c1 c2 => Sys2Proof.Machine.execCcReservedA76 line c1 c2 s
  | .ccTo1 line c1 c2 => Sys2Proof.Machine.execCcTo1 line c1 c2 s
  | .ccTo2 line c1 c2 => Sys2Proof.Machine.execCcTo2 line c1 c2 s
  | .ccTo3 line c1 c2 => Sys2Proof.Machine.execCcTo3 line c1 c2 s
  | .ccBt line c1 c2 => Sys2Proof.Machine.execCcBt line c1 c2 s
  | .ccFa line c1 c2 => Sys2Proof.Machine.execCcFa line c1 c2 s
  | .ccFau line c1 c2 => Sys2Proof.Machine.execCcFau line c1 c2 s
  | .ccUnknown line c1 c2 => Sys2Proof.Machine.execCcUnknown line c1 c2 s
  | .ttxHammingError line b0 b1 => Sys2Proof.Machine.execTtxHammingError line b0 b1 s
  | .ttx830 line p => Sys2Proof.Machine.execTtx830 line p s
  | .ttxIdl line a p => Sys2Proof.Machine.execTtxIdl line a p s
  | .ttx line a p => Sys2Proof.Machine.execTtx line a p s
  | .idlCh0 line a p => Sys2Proof.Machine.execIdlCh0 line a p s
  | .idlDatavideo5or13 line a p => Sys2Proof.Machine.execIdlDatavideo5or13 line a p s
  | .idlDatavideo6or14 line a p => Sys2Proof.Machine.execIdlDatavideo6or14 line a p s
  | .idlFormatted8to11 line a p => Sys2Proof.Machine.execIdlFormatted8to11 line a p s
  | .idlFormatted15 line a p => Sys2Proof.Machine.execIdlFormatted15 line a p s
  | .idlLbra4or12 line a p => Sys2Proof.Machine.execIdlLbra4or12 line a p s
  | .idlLbra7 line a p => Sys2Proof.Machine.execIdlLbra7 line a p s
  | .idlUnclassified line a p => Sys2Proof.Machine.execIdlUnclassified line a p s
  | .idlFormatA line a ft p => Sys2Proof.Machine.execIdlFormatA line a ft p s
  | .idlFormatB line a ft p => Sys2Proof.Machine.execIdlFormatB line a ft p s
  | .idlFtOther line a ft p => Sys2Proof.Machine.execIdlFtOther line a ft p s
  | .idlSpaReserved line a ft ial p => Sys2Proof.Machine.execIdlSpaReserved line a ft ial p s
  | .idlSpa line a ft ial p => Sys2Proof.Machine.execIdlSpa line a ft ial p s

end Sys2Proof.Machine
end

