-- ==== Sys2Proof/Machine/Fetch.lean ====
section
/-!
DEFINITION. How the step takes an operation from the input ports (10_state.md R31, R32; 40_dispatch.md R115).
-/

namespace Sys2Proof.Machine

/-- What the ports of a step hold: nothing, or one operation and the state after it is accepted. -/
inductive Fetched where
  | idle (t : State)
  | operation (w : Code) (t : State)
deriving DecidableEq, Repr

/-- The word to run first and what stays presented after it, in the order PORST, SRST, request, RD
(40_dispatch.md R115). -/
def takeOperation (p : Ports) : Option (Code × Ports) :=
  if p.porst then some (.pin true false none, { p with porst := false })
  else if p.srst then some (.pin false true none, { p with srst := false })
  else
    match p.req with
    | some r => some (.req r, { p with req := none })
    | none =>
      match p.raddr with
      | some addr => some (.pin false false (some addr), { p with raddr := none })
      | none => none

/-- What the host presents after an operation was taken: the inputs of the same presentation that are left, then the
presentations after it. -/
def inputsAfter (left : Ports) (rest : List Ports) : List Ports :=
  if left = Ports.idle then rest else left :: rest

/-- An operation is accepted: the index advances by one (10_state.md R31). -/
def accept (inputs : List Ports) (s : State) : State := { s with inputs := inputs, pc := s.pc + 1 }

/-- A step in which the host presents nothing: no output, no operation counted. -/
def idleStep (inputs : List Ports) (s : State) : State := silent { s with inputs := inputs }

/-- The next operation of the host's sequence. -/
def fetch (s : State) : Fetched :=
  match s.inputs with
  | [] => .idle (idleStep [] s)
  | p :: rest =>
    match takeOperation p with
    | none => .idle (idleStep rest s)
    | some (w, left) => .operation w (accept (inputsAfter left rest) s)

end Sys2Proof.Machine
end

