-- ==== Sys2Proof/Machine/Step.lean ====
section
/-!
DEFINITION. One step: take the next operation the host presents, decode it, run it (40_dispatch.md R100).
-/

namespace Sys2Proof.Machine

/-- The step. With nothing presented the block is idle and keeps its registers (60_exceptions.md R318). -/
def step (s : State) : Host.Outcome State Fault Refusal :=
  match fetch s with
  | .idle t => .next t
  | .operation w t =>
    match decode t.cfg w with
    | .ok i => exec i t
    | .error _ => .refused .noOperation

/-- The state with a word of the opcode table presented as the host's next and only input, so that the next step runs
it; a word of a sub-decoder is presented in the request that carries it (assumption 7). -/
def State.withFetchWord (s : State) (nbits w : Nat) : State :=
  { s with inputs := [carrier (tableCode nbits w)] }

end Sys2Proof.Machine
end

