-- ==== Sys2Proof/Safety.lean ====
section
/-!
DEFINITION. What counts as a good state and a legal record, in the terms the statements use: the register invariants of
10_state.md R33 and R36, and the ranges 30_encoding.md R80 to R86 give the record's fields. Then the spec's arithmetic
written over numbers, apart from the model's own operand functions, and the families of instructions that the
statements name.
-/

namespace Sys2Proof.Machine

/-- No contract violation since power-on reset, the premise of 10_state.md R34. -/
abbrev State.faultFree (s : State) : Prop := s.fault = 0#1

/-- A character a label can hold once it is written: 0x20..0x7E (10_state.md R33). -/
abbrev isPrintable (c : Char7) : Prop := 0x20#7 ≤ c ∧ c ≤ 0x7E#7

/-- `FAULT_CAUSE` is 0, 1 or 2, and is 0 exactly while `FAULT` is 0 (10_state.md R33, R34). -/
def State.faultInv (s : State) : Prop :=
  (s.fault = 0#1 ∧ s.faultCause = 0#4) ∨ (s.fault = 1#1 ∧ (s.faultCause = 1#4 ∨ s.faultCause = 2#4))

/-- The label invariants of 10_state.md R36: the lengths are at most 16, and the position is the length while the
buffer is not full. -/
def State.labelInv (s : State) : Prop :=
  s.vpsLlen.toNat ≤ 16 ∧ s.vpsPlen.toNat ≤ 16 ∧
    (s.vpsLlen.toNat < 16 → s.vpsLpos.toNat = s.vpsLlen.toNat)

/-- The characters below the lengths were written by an append, so they are printable (10_state.md R33). -/
def State.charInv (s : State) : Prop :=
  (∀ c ∈ s.vpsLbuf.toList.take s.vpsLlen.toNat, isPrintable c) ∧ (∀ c ∈ prevLabel s, isPrintable c)

/-- The invariant of the block's registers. -/
def State.Inv (s : State) : Prop := s.faultInv ∧ s.labelInv ∧ s.charInv

/-- Two states with the same architectural registers, the rows of 10_state.md R33. -/
def sameRegisters (s t : State) : Prop :=
  t.fault = s.fault ∧ t.faultCause = s.faultCause ∧ t.ccCh = s.ccCh ∧ t.vpsLbuf = s.vpsLbuf ∧
    t.vpsLpos = s.vpsLpos ∧ t.vpsLlen = s.vpsLlen ∧ t.vpsPrev = s.vpsPrev ∧ t.vpsPlen = s.vpsPlen

/-- Two states with the same label registers. -/
def sameLabel (s t : State) : Prop :=
  t.vpsLbuf = s.vpsLbuf ∧ t.vpsLpos = s.vpsLpos ∧ t.vpsLlen = s.vpsLlen ∧ t.vpsPrev = s.vpsPrev ∧
    t.vpsPlen = s.vpsPlen

/-- Two states with the same session registers: all but the fault status. -/
def sameSession (s t : State) : Prop := t.ccCh = s.ccCh ∧ sameLabel s t

/-- The model's own fields an instruction never writes: the configuration, the host's inputs and their index. -/
def sameEnvironment (s t : State) : Prop := t.cfg = s.cfg ∧ t.inputs = s.inputs ∧ t.pc = s.pc

/-- The ranges of a caption record (30_encoding.md R82, 41_caption.md R127). -/
def CcKind.legal : CcKind → Prop
  | .null => True
  | .text _ _ => True
  | .pac row _ position =>
    row ≠ 0#4 ∧
      (match position with
       | .column col => col.toNat % 4 = 0 ∧ col.toNat ≤ 28
       | .color _ => True)
  | .midrow _ _ => True
  | .special _ => True
  | .extended _ => True
  | .control mnem _ => mnem.toNat ≤ 37
  | .unknown => True

/-- The ranges of an IDL kind (30_encoding.md R85). -/
def IdlKind.legal : IdlKind → Prop
  | .lowBitRateAudio => True
  | .datavideo _ => True
  | .formatA _ ial spaLength spa =>
    spaLength.toNat ≤ 6 ∧ spaLength.toNat = ial.toNat % 8 ∧ spa.toNat < 16 ^ spaLength.toNat
  | .formatB ft an _ => an.toNat = ft.toNat / 4
  | .unclassified _ => True
  | .malformed _ _ _ => True

/-- A record within the ranges of 30_encoding.md R80 to R86 and 60_exceptions.md R301. -/
def Record.legal : Record → Prop
  | .noOp _ => True
  | .cc _ _ _ _ cmd => cmd.legal
  | .vps v => isPrintable v.labelChar ∧ v.prevLabel.length ≤ 16
  | .wss v => v.openSubtitles = true ↔ v.subtitles ≠ 0#2
  | .wssCpr v => v.crcOk = true ↔ v.remainder = 0#6
  | .ttx _ magazine packet _ => 1 ≤ magazine.toNat ∧ magazine.toNat ≤ 8 ∧ packet.toNat ≤ 29
  | .ttx830 _ _ => True
  | .idl _ magazine packet channel sub _ =>
    1 ≤ magazine.toNat ∧ magazine.toNat ≤ 8 ∧ 30 ≤ packet.toNat ∧ channel.toNat = (8 * packet.toNat + magazine.toNat % 8) % 16 ∧
      sub.legal
  | .error line cause site aux =>
    match cause with
    | .sizeMismatch => site = 0#4 ∧ 1 ≤ aux.toNat / 256 ∧ aux.toNat / 256 ≤ 6
    | .lineRange => site = 0#4 ∧ aux = line ∧ 1023 < line.toNat
    | .parityError => 1 ≤ site.toNat ∧ site.toNat ≤ 3
    | .hammingError => 1 ≤ site.toNat ∧ site.toNat ≤ 6
    | .crcError => False
    | .unsupportedVariant => False

/-! ### The spec's arithmetic, as the statements write it -/

/-- `v[hi:lo]` as a number (00_scope.md R8). -/
def field {w : Nat} (v : BitVec w) (hi lo : Nat) : Nat := v.toNat / 2 ^ lo % 2 ^ (hi + 1 - lo)

/-- The number of one bits, counted on the number the bits write (00_scope.md R11). -/
def ones {w : Nat} (v : BitVec w) : Nat := ((List.range w).map (fun i => v.toNat / 2 ^ i % 2)).sum

/-- `WIDTH = [-, 42, 2, 2, 13, 2, 3]` (40_dispatch.md R100). -/
def serviceWidth (tag : Nat) : Nat := [0, 42, 2, 2, 13, 2, 3].getD tag 0

/-- The caption word W, c1 in bits 14..8 and c2 in bits 6..0 (30_encoding.md R76). -/
def captionWord (c1 c2 : Char7) : BitVec 16 := BitVec.ofNat 16 (256 * c1.toNat + c2.toNat)

/-- The 40 bytes after the address, `data[i] = p[2 + i]` (30_encoding.md R84). -/
def afterAddress (p : Payload) : TtxData := Vector.ofFn (fun i => p[i.val + 2])

/-- The product of a polynomial of degree below 20 over GF(2) with `x^6 + x + 1` (44_wss_cpr1204.md R212). -/
def generatorTimes (q : BitVec 20) : BitVec 26 :=
  (List.range 20).foldl (fun acc j => if q.getLsbD j then acc ^^^ (0x43#26 <<< j) else acc) 0

/-- `rem` is the remainder of `g` below six one bits, divided by `x^6 + x + 1` over GF(2), with quotient `q`
(44_wss_cpr1204.md R212). -/
def isRemainder (g : BitVec 20) (q : BitVec 20) (rem : BitVec 6) : Prop :=
  0x3F#6 ++ g = generatorTimes q ^^^ rem.setWidth 26

/-- A run of nibbles as a number, the first the least significant (46_idl.md R255, R257). -/
def nibbleSum : List (BitVec 4) → Nat
  | [] => 0
  | n :: ns => n.toNat + 16 * nibbleSum ns

/-- The seven-bit code of a label byte: bit k of the code is bit 7 - k of the byte (42_vps.md R163). -/
def labelCode (b : Byte) : Nat := ((List.range 7).map (fun k => field b (7 - k) (7 - k) * 2 ^ k)).sum

/-- The magazine of an address, `A[2:0]` with 0 read as 8 (45_ttx_addressing.md R233). -/
def magazineOf (a : BitVec 8) : Nat := if field a 2 0 = 0 then 8 else field a 2 0

/-- The Idl record of an address and a payload (46_idl.md R250). -/
def idlOf (line : Line) (a : BitVec 8) (p : Payload) (sub : IdlKind) : Record :=
  .idl line (BitVec.ofNat 4 (magazineOf a)) (BitVec.ofNat 5 (field a 7 3)) (BitVec.ofNat 4 (field a 3 0)) sub
    (afterAddress p)

/-! ### Families of instructions -/

/-- The six decode operations on one line (40_dispatch.md R105 to R111). -/
def services (line : Line) (p : Payload) (v : VpsPayload) (b0 b1 b2 : Byte) : List Instr :=
  [.decTtx line p, .decCc525 line b0 b1, .decCc625 line b0 b1, .decVps line v, .decWss625 line b0 b1,
    .decCpr1204 line b0 b1 b2]

/-- The instructions that can write `CC_CH`: the two caption operations, the parity-clean pair, the rows of the
recognised commands, and the resets (41_caption.md R121, 20_memory.md R57). -/
def writesChannel (i : Instr) : Prop :=
  i = .srst ∨ i = .porst ∨
  ∃ line, (∃ b0 b1, i = .decCc525 line b0 b1 ∨ i = .decCc625 line b0 b1 ∨ i = .ccParityOk line b0 b1) ∨
    ∃ c1 c2, i = .ccPac line c1 c2 ∨ i = .ccBackground line c1 c2 ∨ i = .ccMidrow line c1 c2 ∨
      i = .ccSpecial line c1 c2 ∨ i = .ccExtended line c1 c2 ∨ i = .ccControl line c1 c2 ∨ i = .ccTo1 line c1 c2 ∨
      i = .ccTo2 line c1 c2 ∨ i = .ccTo3 line c1 c2 ∨ i = .ccBt line c1 c2 ∨ i = .ccFa line c1 c2 ∨
      i = .ccFau line c1 c2

/-- The instructions that can write the label registers (42_vps.md R161, R162, 20_memory.md R57). -/
def writesLabel (i : Instr) : Prop := i = .srst ∨ i = .porst ∨ ∃ line p, i = .decVps line p

/-- The requests that can raise a hard fault, and power-on reset (60_exceptions.md R301, R302). -/
def writesFault (i : Instr) : Prop :=
  i = .porst ∨
  ∃ line, (∃ tag len, i = .reqSizeMismatch line tag len) ∨ ∃ p v b0 b1 b2, i ∈ services line p v b0 b1 b2

/-! ### Runs of instructions -/

/-- Instructions one after the other, stopping at the first that does not give a next state. -/
def runAll : List Instr → State → Out
  | [], s => .next s
  | i :: is, s =>
    match exec i s with
    | .next t => runAll is t
    | .fault r => .fault r
    | .refused r => .refused r

/-- The records of a run, one entry per instruction, `none` where it emits none. -/
def records : List Instr → State → List (Option Record)
  | [], _ => []
  | i :: is, s =>
    match exec i s with
    | .next t => t.rsp :: records is t
    | .fault _ => []
    | .refused _ => []

/-- The record with another line. -/
def Record.withLine (line : Line) : Record → Record
  | .noOp _ => .noOp line
  | .cc _ ch c1 c2 cmd => .cc line ch c1 c2 cmd
  | .vps v => .vps { v with line := line }
  | .wss v => .wss { v with line := line }
  | .wssCpr v => .wssCpr { v with line := line }
  | .ttx _ magazine packet data => .ttx line magazine packet data
  | .ttx830 _ data => .ttx830 line data
  | .idl _ magazine packet channel sub data => .idl line magazine packet channel sub data
  | .error _ cause site aux => .error line cause site aux

end Sys2Proof.Machine
end

