-- ==== Sys2Proof/Certificates/Slice0/Obligations.lean ====
section
/-!
DEFINITION. The statements about the model, for the provers. A statement that gives a next state in full, by a record
update of the state it starts from, says the frame with it: every field the update does not name is unchanged. The
fields of words are written over numbers (`field`, Safety.lean), apart from the model's operand functions. A
statement over every instruction takes in the rows of the sub-decoders, which the model runs as instructions, on any
operands (the model's choice, assumptions 6 and 9).
-/

section

open Sys2Proof Sys2Proof.Machine

/-! ### The dispatcher (40_dispatch.md) -/

/-- 40_dispatch.md R104: tags 0 and 7..15 are NOP whatever LEN, LINE and DATA hold; a NOP emits NoOp and writes no
register. -/
def Obligations.NopEmitsNoOp : Prop :=
  (∀ (cfg : Config) (r : Request) (s : State), field r.word 3 0 = 0 ∨ 7 ≤ field r.word 3 0 →
    ∃ i, decode cfg (.req r) = .ok i ∧
      exec i s = .next { s with rsp := some (.noOp (BitVec.ofNat 16 (field r.word 31 16))), rdata := none }) ∧
  (∀ (line : Line) (t : BitVec 3) (s : State),
    exec (.nop line) s = .next { s with rsp := some (.noOp line), rdata := none } ∧
    exec (.nopRsv7 line) s = .next { s with rsp := some (.noOp line), rdata := none } ∧
    exec (.nopRsv8to15 line t) s = .next { s with rsp := some (.noOp line), rdata := none })

/-- 60_exceptions.md R304, 40_dispatch.md R102, R113: a request of tag 1..6 whose length is not the tag's width, and
no other, is a SizeMismatch fault, whatever its line; the first fault's cause stays. -/
def Obligations.SizeMismatchFaults : Prop :=
  (∀ (cfg : Config) (r : Request),
    (∃ line tag len, decode cfg (.req r) = .ok (.reqSizeMismatch line tag len)) ↔
      (1 ≤ field r.word 3 0 ∧ field r.word 3 0 ≤ 6 ∧ field r.word 9 4 ≠ serviceWidth (field r.word 3 0))) ∧
  (∀ (cfg : Config) (r : Request) (s : State),
    1 ≤ field r.word 3 0 → field r.word 3 0 ≤ 6 → field r.word 9 4 ≠ serviceWidth (field r.word 3 0) →
    ∃ i, decode cfg (.req r) = .ok i ∧
      exec i s = .next
        { s with
          fault := 1
          faultCause := if s.fault = 0 then 1 else s.faultCause
          rsp := some (.error (BitVec.ofNat 16 (field r.word 31 16)) .sizeMismatch 0
            (BitVec.ofNat 16 (256 * field r.word 3 0 + field r.word 9 4)))
          rdata := none }) ∧
  (∀ (line : Line) (tag : BitVec 4) (len : BitVec 6) (s : State),
    1 ≤ tag.toNat → tag.toNat ≤ 6 → len.toNat ≠ serviceWidth tag.toNat →
    exec (.reqSizeMismatch line tag len) s = .next
      { s with
        fault := 1
        faultCause := if s.fault = 0 then 1 else s.faultCause
        rsp := some (.error line .sizeMismatch 0 (BitVec.ofNat 16 (256 * tag.toNat + len.toNat)))
        rdata := none })

/-- 60_exceptions.md R305: a correctly sized request of tag 1..6 on a line above 1023 is a LineRange fault and its
decoder does not run; on a line up to 1023, line 0 included, it is not. First for the request, then for each of the six
decode operations. -/
def Obligations.LineRangeFaults : Prop :=
  (∀ (cfg : Config) (r : Request) (s : State),
    1 ≤ field r.word 3 0 → field r.word 3 0 ≤ 6 → field r.word 9 4 = serviceWidth (field r.word 3 0) →
    ∃ i t, decode cfg (.req r) = .ok i ∧ exec i s = .next t ∧
      (1023 < field r.word 31 16 →
        t = { s with
          fault := 1
          faultCause := if s.fault = 0 then 2 else s.faultCause
          rsp := some (.error (BitVec.ofNat 16 (field r.word 31 16)) .lineRange 0
            (BitVec.ofNat 16 (field r.word 31 16)))
          rdata := none }) ∧
      (field r.word 31 16 ≤ 1023 → t.fault = s.fault ∧ t.faultCause = s.faultCause)) ∧
  (∀ (line : Line) (p : Payload) (v : VpsPayload) (b0 b1 b2 : Byte) (s : State), 1023 < line.toNat →
    ∀ i ∈ services line p v b0 b1 b2,
      exec i s = .next
        { s with
          fault := 1
          faultCause := if s.fault = 0 then 2 else s.faultCause
          rsp := some (.error line .lineRange 0 line)
          rdata := none })

/-- 40_dispatch.md R101, 30_encoding.md R70, R71: the tag, with the length the tag fixes, selects the operation; the
payload never does. -/
def Obligations.RequestSelectsService : Prop :=
  ∀ (cfg : Config) (r : Request),
    (field r.word 3 0 = 0 → decode cfg (.req r) = .ok (.nop (BitVec.ofNat 16 (field r.word 31 16)))) ∧
    (field r.word 3 0 = 1 → field r.word 9 4 = 42 →
      decode cfg (.req r) = .ok (.decTtx (BitVec.ofNat 16 (field r.word 31 16)) r.data)) ∧
    (field r.word 3 0 = 2 → field r.word 9 4 = 2 →
      decode cfg (.req r) = .ok (.decCc525 (BitVec.ofNat 16 (field r.word 31 16)) r.data[0] r.data[1])) ∧
    (field r.word 3 0 = 3 → field r.word 9 4 = 2 →
      decode cfg (.req r) = .ok (.decCc625 (BitVec.ofNat 16 (field r.word 31 16)) r.data[0] r.data[1])) ∧
    (field r.word 3 0 = 4 → field r.word 9 4 = 13 →
      decode cfg (.req r) = .ok (.decVps (BitVec.ofNat 16 (field r.word 31 16)) (Vector.ofFn fun i => r.data[i.val]))) ∧
    (field r.word 3 0 = 5 → field r.word 9 4 = 2 →
      decode cfg (.req r) = .ok (.decWss625 (BitVec.ofNat 16 (field r.word 31 16)) r.data[0] r.data[1])) ∧
    (field r.word 3 0 = 6 → field r.word 9 4 = 3 →
      decode cfg (.req r) =
        .ok (.decCpr1204 (BitVec.ofNat 16 (field r.word 31 16)) r.data[0] r.data[1] r.data[2])) ∧
    (field r.word 3 0 = 7 → decode cfg (.req r) = .ok (.nopRsv7 (BitVec.ofNat 16 (field r.word 31 16)))) ∧
    (8 ≤ field r.word 3 0 →
      decode cfg (.req r) =
        .ok (.nopRsv8to15 (BitVec.ofNat 16 (field r.word 31 16)) (BitVec.ofNat 3 (field r.word 3 0))))

/-- 30_encoding.md R74, 20_memory.md R51: neither `RSVD` nor the data bytes from `LEN` on have any effect. -/
def Obligations.RsvdAndUnreadBytesIgnored : Prop :=
  ∀ (cfg : Config) (r r' : Request),
    field r.word 3 0 = field r'.word 3 0 → field r.word 9 4 = field r'.word 9 4 →
    field r.word 31 16 = field r'.word 31 16 →
    (∀ k : Fin 42, k.val < field r.word 9 4 → r.data[k.val] = r'.data[k.val]) →
    decode cfg (.req r) = decode cfg (.req r')

/-- 30_encoding.md R73, 40_dispatch.md R103, 42_vps.md R172: a line in range reaches only the record's `line` field. -/
def Obligations.LineIsOnlyCopied : Prop :=
  ∀ (line line' : Line) (p : Payload) (v : VpsPayload) (b0 b1 b2 : Byte) (s t : State) (k : Nat) (i i' : Instr),
    line.toNat ≤ 1023 → line'.toNat ≤ 1023 →
    (services line p v b0 b1 b2)[k]? = some i → (services line' p v b0 b1 b2)[k]? = some i' →
    exec i s = .next t →
    (t.rsp.map recordLine = some line ∧
      exec i' s = .next { t with rsp := t.rsp.map (Record.withLine line') })

/-- 40_dispatch.md R114: a correctly sized request on a line in range gives a record of its service, or the Error
record of that service's own check, and never faults. -/
def Obligations.ServiceRecord : Prop :=
  ∀ (line : Line) (p : Payload) (v : VpsPayload) (b0 b1 b2 : Byte) (s : State), line.toNat ≤ 1023 →
    (∀ i ∈ services line p v b0 b1 b2, ∃ t, exec i s = .next t ∧
      t.fault = s.fault ∧ t.faultCause = s.faultCause ∧ t.rdata = none) ∧
    (∃ t r, exec (.decTtx line p) s = .next t ∧ t.rsp = some r ∧
      (recordKind r = 5 ∨ recordKind r = 6 ∨ recordKind r = 7 ∨ ∃ site aux, r = .error line .hammingError site aux)) ∧
    (∃ t r, exec (.decCc525 line b0 b1) s = .next t ∧ t.rsp = some r ∧
      (recordKind r = 1 ∨ ∃ site aux, r = .error line .parityError site aux)) ∧
    (∃ t r, exec (.decCc625 line b0 b1) s = .next t ∧ t.rsp = some r ∧
      (recordKind r = 1 ∨ ∃ site aux, r = .error line .parityError site aux)) ∧
    (∃ t r, exec (.decVps line v) s = .next t ∧ t.rsp = some r ∧ recordKind r = 2) ∧
    (∃ t r, exec (.decWss625 line b0 b1) s = .next t ∧ t.rsp = some r ∧ recordKind r = 3) ∧
    (∃ t r, exec (.decCpr1204 line b0 b1 b2) s = .next t ∧ t.rsp = some r ∧ recordKind r = 4)

/-- 40_dispatch.md R108: what SRST writes; FAULT and FAULT_CAUSE stay, no record is emitted. -/
def Obligations.SrstResult : Prop :=
  ∀ s : State, exec .srst s = .next
    { s with
      ccCh := 0
      vpsLbuf := Vector.replicate 16 0
      vpsLpos := 0
      vpsLlen := 0
      vpsPrev := Vector.replicate 16 0
      vpsPlen := 0
      rsp := none
      rdata := none }

/-- 70_reset_and_hazards.md R330: what PORST writes, every register, and that these are the registers of the reset
state; no record is emitted. -/
def Obligations.PorstResult : Prop :=
  ∀ s : State,
    exec .porst s = .next
      { s with
        fault := 0
        faultCause := 0
        ccCh := 0
        vpsLbuf := Vector.replicate 16 0
        vpsLpos := 0
        vpsLlen := 0
        vpsPrev := Vector.replicate 16 0
        vpsPlen := 0
        rsp := none
        rdata := none } ∧
    ∀ t, exec .porst s = .next t → sameRegisters State.reset t

/-- 10_state.md R38, 40_dispatch.md R112: the whole readout map; an unlisted address reads 0x00, and a readout changes
no register and emits no record. -/
def Obligations.ReadoutResult : Prop :=
  ∀ (addr : BitVec 8) (s : State),
    exec (.rd addr) s = .next
      { s with
        rsp := none
        rdata := some (BitVec.ofNat 8
          (if addr.toNat = 0 then s.fault.toNat + 16 * s.faultCause.toNat
           else if addr.toNat = 1 then s.ccCh.toNat
           else if addr.toNat = 2 then s.vpsLpos.toNat
           else if addr.toNat = 3 then s.vpsLlen.toNat
           else if addr.toNat = 4 then s.vpsPlen.toNat
           else if 0x10 ≤ addr.toNat ∧ addr.toNat < 0x20 then (s.vpsLbuf.toList.getD (addr.toNat - 0x10) 0).toNat
           else if 0x20 ≤ addr.toNat ∧ addr.toNat < 0x30 then (s.vpsPrev.toList.getD (addr.toNat - 0x20) 0).toNat
           else 0)) }

/-! ### The step and the host's inputs -/

/-- 40_dispatch.md R115, 10_state.md R31: the step takes from the presented inputs PORST, else SRST, else the request,
else the readout; what is left of them stays presented; the taken operation runs decoded, and the index advances. That
PORST advances the index and that a readout is an optional address are the model's choices (assumptions 3 and 8). -/
def Obligations.StepRunsPresented : Prop :=
  ∀ (p : Ports) (rest : List Ports) (s : State), s.inputs = p :: rest →
    (p.porst = true →
      step s = exec .porst
        { s with
          inputs := if { p with porst := false } = Ports.idle then rest else { p with porst := false } :: rest
          pc := s.pc + 1 }) ∧
    (p.porst = false → p.srst = true →
      step s = exec .srst
        { s with
          inputs := if { p with srst := false } = Ports.idle then rest else { p with srst := false } :: rest
          pc := s.pc + 1 }) ∧
    (∀ r i, p.porst = false → p.srst = false → p.req = some r → decode s.cfg (.req r) = .ok i →
      step s = exec i
        { s with
          inputs := if { p with req := none } = Ports.idle then rest else { p with req := none } :: rest
          pc := s.pc + 1 }) ∧
    (∀ addr, p.porst = false → p.srst = false → p.req = none → p.raddr = some addr →
      step s = exec (.rd addr) { s with inputs := rest, pc := s.pc + 1 })

/-- The model's choice (assumption 5), after 60_exceptions.md R318: a step in which the host presents nothing changes
no register, counts no operation and gives no output. -/
def Obligations.IdleStep : Prop :=
  (∀ s : State, s.inputs = [] → step s = .next { s with rsp := none, rdata := none }) ∧
  (∀ (rest : List Ports) (s : State), s.inputs = Ports.idle :: rest →
    step s = .next { s with inputs := rest, rsp := none, rdata := none })

/-- 40_dispatch.md R115: PORST, SRST, a request and a readout presented together are four successive steps in that
order, and none is lost. That each counts in the index and that a readout is an optional address are the model's
choices (assumptions 3 and 8). -/
def Obligations.SimultaneousInputs : Prop :=
  ∀ (r : Request) (i : Instr) (addr : BitVec 8) (rest : List Ports) (s : State),
    s.inputs = ⟨true, true, some r, some addr⟩ :: rest → decode s.cfg (.req r) = .ok i →
    ∃ t1 t2 t3 t4,
      step s = .next t1 ∧ step t1 = .next t2 ∧ step t2 = .next t3 ∧ step t3 = .next t4 ∧
      runAll [.porst, .srst, i, .rd addr] { s with inputs := rest, pc := s.pc + 4 } = .next t4 ∧
      t1.rsp = none ∧ t2.rsp = none ∧
      (∀ t, exec i t2 = .next t → t3.rsp = t.rsp) ∧
      t4.rdata = some (readout t3 addr)

/-- 40_dispatch.md R100, 93_implementation_defined.md ("the block refuses no input"): every instruction, and every
step from every state, gives a next state. -/
def Obligations.StepTotal : Prop :=
  (∀ (i : Instr) (s : State), ∃ t, exec i s = .next t) ∧ (∀ s : State, ∃ t, step s = .next t)

/-! ### Registers across instructions -/

/-- 10_state.md R34, 60_exceptions.md R302: only PORST clears FAULT; while FAULT is 1 no instruction but PORST writes
FAULT_CAUSE; and FAULT rises only with the Error record of a hard fault, whose cause FAULT_CAUSE then holds. -/
def Obligations.HardFaultIsSticky : Prop :=
  ∀ (i : Instr) (s t : State), exec i s = .next t → i ≠ .porst →
    (s.fault = 1 → t.fault = 1 ∧ t.faultCause = s.faultCause) ∧
    (s.fault = 0 →
      (t.fault = 0 ∧ t.faultCause = s.faultCause) ∨
      (t.fault = 1 ∧ ∃ line cause aux, t.rsp = some (.error line cause 0 aux) ∧
        (cause = .sizeMismatch ∨ cause = .lineRange) ∧ t.faultCause = causeCode cause))

/-- 20_memory.md R57, 60_exceptions.md R311: which registers an instruction of each family can write, and that no
instruction writes the configuration, the host's inputs or their index (the model's own fields, assumptions 1 and 2). A
step that ends in an Error record writes no register but the fault status. -/
def Obligations.RegistersWritten : Prop :=
  ∀ (i : Instr) (s t : State), exec i s = .next t →
    sameEnvironment s t ∧
    (¬ writesChannel i → t.ccCh = s.ccCh) ∧
    (¬ writesLabel i → sameLabel s t) ∧
    (¬ writesFault i → t.fault = s.fault ∧ t.faultCause = s.faultCause) ∧
    (∀ line cause site aux, t.rsp = some (.error line cause site aux) → sameSession s t)

/-- 20_memory.md R58: repeating an instruction from the state it left changes nothing, for every instruction but DEC.VPS
and DEC.CC*. -/
def Obligations.RepeatIsIdempotent : Prop :=
  ∀ (i : Instr) (s t : State), exec i s = .next t → (∀ line p, i ≠ .decVps line p) →
    (∀ line b0 b1, i ≠ .decCc525 line b0 b1 ∧ i ≠ .decCc625 line b0 b1) → exec i t = .next t

/-- 10_state.md R39, 20_memory.md R58: what an instruction gives depends on the registers and the configuration alone,
not on the host's later inputs, their index or the last outputs (the model's own fields, assumptions 2 and 4). -/
def Obligations.ResultDependsOnRegisters : Prop :=
  ∀ (i : Instr) (s s' t : State), s'.cfg = s.cfg → sameRegisters s s' → exec i s = .next t →
    ∃ t', exec i s' = .next t' ∧ sameRegisters t t' ∧ t'.rsp = t.rsp ∧ t'.rdata = t.rdata

/-- 70_reset_and_hazards.md R332, R108: after SRST the records of every later sequence of operations are the same
whatever the registers held before it. -/
def Obligations.SrstForgetsTheSession : Prop :=
  ∀ (is : List Instr) (s s' t t' : State), s'.cfg = s.cfg → exec .srst s = .next t → exec .srst s' = .next t' →
    records is t = records is t'

/-- The reset state has the invariant, and its registers are those of 70_reset_and_hazards.md R330. -/
def Obligations.ResetHasTheInvariant : Prop :=
  State.reset.Inv ∧ State.reset.fault = 0 ∧ State.reset.faultCause = 0 ∧ State.reset.ccCh = 0 ∧
    State.reset.vpsLbuf = Vector.replicate 16 0 ∧ State.reset.vpsLpos = 0 ∧ State.reset.vpsLlen = 0 ∧
    State.reset.vpsPrev = Vector.replicate 16 0 ∧ State.reset.vpsPlen = 0

/-- 10_state.md R33, R34, R36: every step from a state with the invariant gives a state with the invariant: the fault
cause is the code of a hard fault exactly while FAULT is 1, the label lengths are at most 16, the position is the length
while the buffer is not full, and the characters below the lengths are printable. -/
def Obligations.StepKeepsTheInvariant : Prop :=
  ∀ s t : State, s.Inv → step s = .next t → t.Inv

/-- 30_encoding.md R80 to R86, 60_exceptions.md R301: every record a step emits is within the ranges the spec gives
its fields. -/
def Obligations.RecordsAreLegal : Prop :=
  ∀ (s t : State) (r : Record), step s = .next t → t.rsp = some r → r.legal

/-! ### Closed Caption (41_caption.md) -/

/-- 00_scope.md R12: a byte decodes, to its low seven bits, exactly when it has an odd number of one bits. -/
def Obligations.OddParityDecode : Prop :=
  ∀ b : Byte, unpar8 b = if ones b % 2 = 1 then some (BitVec.ofNat 7 (b.toNat % 128)) else none

/-- 41_caption.md R120, 60_exceptions.md R306: a pair with a byte of even parity gives the ParityError record, `where`
saying which byte failed, and changes no register. -/
def Obligations.ParityErrorResult : Prop :=
  ∀ (line : Line) (b0 b1 : Byte) (s : State), ones b0 % 2 = 0 ∨ ones b1 % 2 = 0 →
    (∀ cfg, decode cfg (.ccraw line b0 b1) = .ok (.ccParityError line b0 b1)) ∧
    ∀ i, i = .ccParityError line b0 b1 ∨ (line.toNat ≤ 1023 ∧ (i = .decCc525 line b0 b1 ∨ i = .decCc625 line b0 b1)) →
      exec i s = .next
        { s with
          rsp := some (.error line .parityError
            (BitVec.ofNat 4 ((if ones b0 % 2 = 0 then 1 else 0) + (if ones b1 % 2 = 0 then 2 else 0)))
            (BitVec.ofNat 16 (256 * b0.toNat + b1.toNat)))
          rdata := none }

/-- 41_caption.md R120, R129: a caption request whose bytes pass the parity check runs the row of the opcode table that
matches the stripped pair. -/
def Obligations.CaptionRunsItsRow : Prop :=
  ∀ (line : Line) (b0 b1 : Byte) (s : State), ones b0 % 2 = 1 → ones b1 % 2 = 1 →
    ∃ row t,
      decode s.cfg (.cc line (captionWord (BitVec.ofNat 7 (b0.toNat % 128)) (BitVec.ofNat 7 (b1.toNat % 128)))) =
        .ok row ∧
      exec row s = .next t ∧
      decode s.cfg (.ccraw line b0 b1) = .ok (.ccParityOk line b0 b1) ∧
      exec (.ccParityOk line b0 b1) s = .next t ∧
      (line.toNat ≤ 1023 → exec (.decCc525 line b0 b1) s = .next t ∧ exec (.decCc625 line b0 b1) s = .next t)

/-- 41_caption.md R130: Null. -/
def Obligations.CaptionNull : Prop :=
  (∀ (cfg : Config) (line : Line) (c2 : Char7), decode cfg (.cc line (captionWord 0 c2)) = .ok (.ccNull line 0 c2)) ∧
  (∀ (line : Line) (c2 : Char7) (s : State),
    exec (.ccNull line 0 c2) s = .next { s with rsp := some (.cc line s.ccCh 0 c2 .null), rdata := none })

/-- 41_caption.md R131: Text. -/
def Obligations.CaptionText : Prop :=
  ∀ (line : Line) (c1 c2 : Char7) (s : State), 0x20 ≤ c1.toNat →
    (∀ cfg, decode cfg (.cc line (captionWord c1 c2)) = .ok (.ccText line c1 c2)) ∧
    exec (.ccText line c1 c2) s = .next
      { s with
        rsp := some (.cc line s.ccCh c1 c2
          (.text (s.cfg.ccBasic.toList.getD (c1.toNat - 0x20) 0)
            (if 0x20 ≤ c2.toNat then s.cfg.ccBasic.toList.getD (c2.toNat - 0x20) 0 else 0)))
        rdata := none }

/-- 41_caption.md R132, R134, R140, R145: the four rows whose record is Unknown, with the pairs that select each; the
record takes the channel of the pair and no register is written. -/
def Obligations.CaptionUnknown : Prop :=
  ∀ (line : Line) (c1 c2 : Char7) (s : State) (i : Instr), 1 ≤ c1.toNat → c1.toNat ≤ 0x1F →
    (c2.toNat < 0x20 ∧ i = .ccInvalidC2 line c1 c2) ∨
    (0x40 ≤ c2.toNat ∧ s.cfg.pacRow.toList.getD (2 * (c1.toNat % 8) + field c2 5 5) 0 = 0 ∧
      i = .ccPacUnassigned line c1 c2) ∨
    (c1.toNat % 8 = 6 ∧ 0x20 ≤ c2.toNat ∧ c2.toNat ≤ 0x3F ∧ i = .ccReservedA76 line c1 c2) ∨
    ((c1.toNat % 8 = 0 ∨ c1.toNat % 8 = 4 ∨ c1.toNat % 8 = 5) ∧ 0x30 ≤ c2.toNat ∧ c2.toNat ≤ 0x3F ∧
      i = .ccUnknown line c1 c2) ∨
    (c1.toNat % 8 = 7 ∧ 0x20 ≤ c2.toNat ∧ c2.toNat ≤ 0x3F ∧ c2.toNat ∉ [0x21, 0x22, 0x23, 0x2D, 0x2E, 0x2F] ∧
      i = .ccUnknown line c1 c2) →
    decode s.cfg (.cc line (captionWord c1 c2)) = .ok i ∧
    exec i s = .next
      { s with rsp := some (.cc line (BitVec.ofNat 1 (field c1 3 3)) c1 c2 .unknown), rdata := none }

/-- 41_caption.md R133: a Preamble Address Code with an assigned row. -/
def Obligations.CaptionPac : Prop :=
  ∀ (line : Line) (c1 c2 : Char7) (s : State), 1 ≤ c1.toNat → c1.toNat ≤ 0x1F → 0x40 ≤ c2.toNat →
    s.cfg.pacRow.toList.getD (2 * (c1.toNat % 8) + field c2 5 5) 0 ≠ 0 →
    decode s.cfg (.cc line (captionWord c1 c2)) = .ok (.ccPac line c1 c2) ∧
    exec (.ccPac line c1 c2) s = .next
      { s with
        ccCh := BitVec.ofNat 1 (field c1 3 3)
        rsp := some (.cc line (BitVec.ofNat 1 (field c1 3 3)) c1 c2
          (.pac (s.cfg.pacRow.toList.getD (2 * (c1.toNat % 8) + field c2 5 5) 0) (BitVec.ofNat 1 (field c2 0 0))
            (if field c2 4 4 = 1 then .column (BitVec.ofNat 5 (4 * field c2 3 1))
             else .color (BitVec.ofNat 3 (field c2 3 1)))))
        rdata := none }

/-- 41_caption.md R136: a mid-row style. -/
def Obligations.CaptionMidrow : Prop :=
  ∀ (line : Line) (c1 c2 : Char7) (s : State), 1 ≤ c1.toNat → c1.toNat ≤ 0x1F → c1.toNat % 8 = 1 →
    0x20 ≤ c2.toNat → c2.toNat ≤ 0x2F →
    (∀ cfg, decode cfg (.cc line (captionWord c1 c2)) = .ok (.ccMidrow line c1 c2)) ∧
    exec (.ccMidrow line c1 c2) s = .next
      { s with
        ccCh := BitVec.ofNat 1 (field c1 3 3)
        rsp := some (.cc line (BitVec.ofNat 1 (field c1 3 3)) c1 c2
          (.midrow (BitVec.ofNat 3 (field c2 3 1)) (BitVec.ofNat 1 (field c2 0 0))))
        rdata := none }

/-- 41_caption.md R137: a special character. -/
def Obligations.CaptionSpecial : Prop :=
  ∀ (line : Line) (c1 c2 : Char7) (s : State), 1 ≤ c1.toNat → c1.toNat ≤ 0x1F → c1.toNat % 8 = 1 →
    0x30 ≤ c2.toNat → c2.toNat ≤ 0x3F →
    (∀ cfg, decode cfg (.cc line (captionWord c1 c2)) = .ok (.ccSpecial line c1 c2)) ∧
    exec (.ccSpecial line c1 c2) s = .next
      { s with
        ccCh := BitVec.ofNat 1 (field c1 3 3)
        rsp := some (.cc line (BitVec.ofNat 1 (field c1 3 3)) c1 c2
          (.special (s.cfg.ccSpecial.toList.getD (field c2 3 0) 0)))
        rdata := none }

/-- 41_caption.md R138: an extended character. -/
def Obligations.CaptionExtended : Prop :=
  ∀ (line : Line) (c1 c2 : Char7) (s : State), 1 ≤ c1.toNat → c1.toNat ≤ 0x1F →
    c1.toNat % 8 = 2 ∨ c1.toNat % 8 = 3 → 0x20 ≤ c2.toNat → c2.toNat ≤ 0x3F →
    (∀ cfg, decode cfg (.cc line (captionWord c1 c2)) = .ok (.ccExtended line c1 c2)) ∧
    exec (.ccExtended line c1 c2) s = .next
      { s with
        ccCh := BitVec.ofNat 1 (field c1 3 3)
        rsp := some (.cc line (BitVec.ofNat 1 (field c1 3 3)) c1 c2
          (.extended ((if c1.toNat % 8 = 2 then s.cfg.ccExt2 else s.cfg.ccExt3).toList.getD (c2.toNat - 0x20) 0)))
        rdata := none }

/-- 41_caption.md R135, R127, R139, R126: a background attribute, mnemonic code `16 + c2[3:0]`, and a miscellaneous
control code, mnemonic code `c2[3:0]` tagged with the field parity. -/
def Obligations.CaptionBackgroundAndControl : Prop :=
  ∀ (line : Line) (c1 c2 : Char7) (s : State), 1 ≤ c1.toNat → c1.toNat ≤ 0x1F → 0x20 ≤ c2.toNat → c2.toNat ≤ 0x2F →
    (c1.toNat % 8 = 0 →
      (∀ cfg, decode cfg (.cc line (captionWord c1 c2)) = .ok (.ccBackground line c1 c2)) ∧
      exec (.ccBackground line c1 c2) s = .next
        { s with
          ccCh := BitVec.ofNat 1 (field c1 3 3)
          rsp := some (.cc line (BitVec.ofNat 1 (field c1 3 3)) c1 c2
            (.control (BitVec.ofNat 6 (16 + field c2 3 0)) none))
          rdata := none }) ∧
    (c1.toNat % 8 = 4 ∨ c1.toNat % 8 = 5 →
      (∀ cfg, decode cfg (.cc line (captionWord c1 c2)) = .ok (.ccControl line c1 c2)) ∧
      exec (.ccControl line c1 c2) s = .next
        { s with
          ccCh := BitVec.ofNat 1 (field c1 3 3)
          rsp := some (.cc line (BitVec.ofNat 1 (field c1 3 3)) c1 c2
            (.control (BitVec.ofNat 6 (field c2 3 0)) (some (BitVec.ofNat 1 (field c1 0 0)))))
          rdata := none })

/-- 41_caption.md R141 to R144: the six codes of `a7 = 7`, by the exact second byte: TO1, TO2, TO3, BT, FA, FAU. -/
def Obligations.CaptionExactCodes : Prop :=
  ∀ (line : Line) (c1 : Char7) (s : State) (c2 : Char7) (mnem : Nat) (i : Instr),
    1 ≤ c1.toNat → c1.toNat ≤ 0x1F → c1.toNat % 8 = 7 →
    (c2, mnem, i) ∈ [(0x21#7, 31 + 1, Instr.ccTo1 line c1 c2), (0x22#7, 31 + 2, .ccTo2 line c1 c2),
      (0x23#7, 31 + 3, .ccTo3 line c1 c2), (0x2D#7, 35, .ccBt line c1 c2), (0x2E#7, 36, .ccFa line c1 c2),
      (0x2F#7, 37, .ccFau line c1 c2)] →
    (∀ cfg, decode cfg (.cc line (captionWord c1 c2)) = .ok i) ∧
    exec i s = .next
      { s with
        ccCh := BitVec.ofNat 1 (field c1 3 3)
        rsp := some (.cc line (BitVec.ofNat 1 (field c1 3 3)) c1 c2 (.control (BitVec.ofNat 6 mnem) none))
        rdata := none }

/-- 41_caption.md R121: which channel a caption record carries and when CC_CH takes it, for every instruction that
emits a caption record. -/
def Obligations.ChannelMemory : Prop :=
  ∀ (i : Instr) (s t : State) (line : Line) (ch : BitVec 1) (c1 c2 : Char7) (cmd : CcKind),
    exec i s = .next t → t.rsp = some (.cc line ch c1 c2 cmd) →
    match cmd with
    | .null => ch = s.ccCh ∧ t.ccCh = s.ccCh
    | .text _ _ => ch = s.ccCh ∧ t.ccCh = s.ccCh
    | .unknown => ch = BitVec.ofNat 1 (field c1 3 3) ∧ t.ccCh = s.ccCh
    | .pac _ _ _ => ch = BitVec.ofNat 1 (field c1 3 3) ∧ t.ccCh = ch
    | .midrow _ _ => ch = BitVec.ofNat 1 (field c1 3 3) ∧ t.ccCh = ch
    | .special _ => ch = BitVec.ofNat 1 (field c1 3 3) ∧ t.ccCh = ch
    | .extended _ => ch = BitVec.ofNat 1 (field c1 3 3) ∧ t.ccCh = ch
    | .control _ _ => ch = BitVec.ofNat 1 (field c1 3 3) ∧ t.ccCh = ch

/-- 41_caption.md R146: a parity-clean pair gives one caption record with the request's line and the stripped pair, and
the two caption operations agree. -/
def Obligations.CaptionRecord : Prop :=
  ∀ (line : Line) (b0 b1 : Byte) (s : State),
    exec (.decCc525 line b0 b1) s = exec (.decCc625 line b0 b1) s ∧
    (line.toNat ≤ 1023 → ones b0 % 2 = 1 → ones b1 % 2 = 1 →
      ∃ t ch cmd, exec (.decCc525 line b0 b1) s = .next t ∧
        t.rsp = some (.cc line ch (BitVec.ofNat 7 (b0.toNat % 128)) (BitVec.ofNat 7 (b1.toNat % 128)) cmd))

/-- 41_caption.md R125, R134: under the default row table every row 1..15 has exactly one index, and index 1 has
none. -/
def Obligations.DefaultPacRows : Prop :=
  (∀ row : BitVec 4, row ≠ 0 → (List.range 16).countP (fun i => defaultConfig.pacRow.toList.getD i 0 == row) = 1) ∧
  (∀ i < 16, defaultConfig.pacRow.toList.getD i 0 = 0 ↔ i = 1)

/-! ### VPS (42_vps.md) -/

/-- 42_vps.md R160 to R170: DEC.VPS on a line in range: the record, and the label registers after the flush and the
append. -/
def Obligations.VpsResult : Prop :=
  ∀ (line : Line) (p : VpsPayload) (s : State) (code ch pos len cni pil : Nat), line.toNat ≤ 1023 →
    code = labelCode p[1] → ch = (if 0x20 ≤ code ∧ code ≤ 0x7E then code else 0x2E) →
    pos = (if field p[1] 0 0 = 1 then 0 else s.vpsLpos.toNat) →
    len = (if field p[1] 0 0 = 1 then 0 else s.vpsLlen.toNat) →
    cni = 1024 * field p[10] 1 0 + 256 * field p[11] 7 6 + 64 * field p[8] 7 6 + field p[11] 5 0 →
    pil = 16384 * field p[8] 5 0 + 64 * p[9].toNat + field p[10] 7 2 →
    exec (.decVps line p) s = .next
      { s with
        vpsLbuf := s.vpsLbuf.setIfInBounds pos (BitVec.ofNat 7 ch)
        vpsLpos := BitVec.ofNat 4 ((pos + 1) % 16)
        vpsLlen := BitVec.ofNat 5 (min (len + 1) 16)
        vpsPrev := if field p[1] 0 0 = 1 then s.vpsLbuf else s.vpsPrev
        vpsPlen := if field p[1] 0 0 = 1 then s.vpsLlen else s.vpsPlen
        rsp := some (.vps
          { line := line
            cni := BitVec.ofNat 12 cni
            cniNoId := decide (cni = 0 ∨ cni = 0xFFF)
            pcs := BitVec.ofNat 2 (field p[2] 7 6)
            pty := p[12]
            pil := BitVec.ofNat 20 pil
            pilKind :=
              if pil = 0x07FFF then .timerControl
              else if pil = 0x07FBF then .inhibitTerminate
              else if pil = 0x07F7F then .interruption
              else if pil = 0x07F3F then .continue
              else if pil = 0x7FFFF then .noTime
              else .date
            day := BitVec.ofNat 5 (pil / 2 ^ 15)
            month := BitVec.ofNat 4 (pil / 2 ^ 11 % 16)
            hour := BitVec.ofNat 5 (pil / 2 ^ 6 % 32)
            minute := BitVec.ofNat 6 (pil % 64)
            labelChar := BitVec.ofNat 7 ch
            labelRestart := decide (field p[1] 0 0 = 1)
            prevLabel :=
              if field p[1] 0 0 = 1 then s.vpsLbuf.toList.take s.vpsLlen.toNat
              else s.vpsPrev.toList.take s.vpsPlen.toNat })
        rdata := none }

/-- 42_vps.md R163: a character sent as `rev8((f << 7) | x)` is received as x with flag f, and `rev8` is its own
inverse. -/
def Obligations.LabelByteRoundTrip : Prop :=
  (∀ b : Byte, rev8 (rev8 b) = b) ∧
  (∀ (f : BitVec 1) (x : Char7), labelCode (rev8 (f ++ x)) = x.toNat ∧ field (rev8 (f ++ x)) 0 0 = f.toNat)

/-- 42_vps.md R173: sixteen packets that carry sixteen printable characters, the flag on the first, leave them in
`VPS_LBUF`; the next flagged packet returns them as its `prev_label`. From any state, on any lines in range. -/
def Obligations.LabelRoundTrip : Prop :=
  ∀ (s : State) (line : Fin 17 → Line) (p : Fin 17 → VpsPayload) (chars : Vector Char7 16),
    (∀ k, (line k).toNat ≤ 1023) → (∀ k : Fin 16, isPrintable chars[k.val]) →
    (∀ k : Fin 16, (p k.castSucc)[1] = rev8 ((if k.val = 0 then 1#1 else 0#1) ++ chars[k.val])) →
    field (p 16)[1] 0 0 = 1 →
    ∃ t u v,
      runAll ((List.finRange 16).map (fun k => .decVps (line k.castSucc) (p k.castSucc))) s = .next t ∧
      t.vpsLbuf = chars ∧ t.vpsLlen = 16 ∧ t.vpsLpos = 0 ∧
      exec (.decVps (line 16) (p 16)) t = .next u ∧ u.rsp = some (.vps v) ∧
      v.labelRestart = true ∧ v.prevLabel = chars.toList

/-- 42_vps.md R171: `p[0]`, `p[2][5:0]` and `p[3]` to `p[7]` have no effect on the record or the state. -/
def Obligations.VpsUnusedBits : Prop :=
  ∀ (line : Line) (p q : VpsPayload) (s : State),
    p[1] = q[1] → field p[2] 7 6 = field q[2] 7 6 → p[8] = q[8] → p[9] = q[9] → p[10] = q[10] → p[11] = q[11] →
    p[12] = q[12] → exec (.decVps line p) s = exec (.decVps line q) s

/-! ### WSS-625 and CPR1204 (43_wss625.md, 44_wss_cpr1204.md) -/

/-- 43_wss625.md R190 to R197: DEC.WSS625 on a line in range, under either parity reading; no register is written. -/
def Obligations.WssResult : Prop :=
  ∀ (line : Line) (b0 b1 : Byte) (s : State), line.toNat ≤ 1023 →
    exec (.decWss625 line b0 b1) s = .next
      { s with
        rsp := some (.wss
          { line := line
            format := BitVec.ofNat 3 (field b0 2 0)
            cameraOrFilm := decide (field b0 4 4 = 1)
            standardOrMaCp := decide (field b0 5 5 = 1)
            helperSubcarrier := decide (field b0 6 6 = 1)
            reservedB7 := decide (field b0 7 7 = 1)
            teletextSubtitles := decide (field b1 0 0 = 1)
            subtitles := BitVec.ofNat 2 (field b1 2 1)
            openSubtitles := decide (field b1 2 1 ≠ 0)
            surround := decide (field b1 3 3 = 1)
            copyright := decide (field b1 4 4 = 1)
            copyRestricted := decide (field b1 5 5 = 1)
            parityOk :=
              if s.cfg.wssParityOddOk then decide (ones (b0.setWidth 4) % 2 = 1)
              else decide (ones (b0.setWidth 4) % 2 = 0) })
        rdata := none }

/-- 44_wss_cpr1204.md R210 to R215: DEC.CPR1204 on a line in range: the assembled group, its payload, the remainder of
the polynomial division and whether it is zero; no register is written. -/
def Obligations.CprResult : Prop :=
  ∀ (line : Line) (b0 b1 b2 : Byte) (s : State), line.toNat ≤ 1023 →
    ∃ (g : BitVec 20) (q : BitVec 20) (rem : BitVec 6),
      g = BitVec.ofNat 20 ((b0.toNat <<< 12) ||| (b1.toNat <<< 4) ||| b2.toNat) ∧ isRemainder g q rem ∧
      exec (.decCpr1204 line b0 b1 b2) s = .next
        { s with
          rsp := some (.wssCpr
            { line := line, crcOk := decide (rem = 0), group := BitVec.ofNat 14 (field g 19 6), raw := g,
              remainder := rem })
          rdata := none }

/-- 44_wss_cpr1204.md R212: `cpr_rem(g)` is the one remainder of `g + 0x3F·x^20` by `x^6 + x + 1` over GF(2). -/
def Obligations.RemainderIsUnique : Prop :=
  ∀ (g : BitVec 20) (rem : BitVec 6), (∃ q, isRemainder g q rem) ↔ rem = cprRem g

/-- 44_wss_cpr1204.md R214: the group with payload P and check bits c is valid exactly when c is the remainder of
`P << 6`; so each of the 2^14 payloads has one valid group. -/
def Obligations.ValidGroups : Prop :=
  (∀ (pay : BitVec 14) (c : BitVec 6), cprRem (pay ++ c) = 0 ↔ c = cprRem (pay ++ 0#6)) ∧
  cprRem 0x00028 = 0 ∧ cprRem 0x0006B = 0 ∧ cprRem 0x48D10 = 0 ∧ cprRem 0xFFFFD = 0 ∧ cprRem 0 = 0x28

/-- 44_wss_cpr1204.md R217: a single-bit change of a valid group is detected, and which single-bit changes of the
payload bytes are. -/
def Obligations.SingleBitErrors : Prop :=
  (∀ (g : BitVec 20) (k : Nat), k < 20 → cprRem g = 0 → cprRem (g ^^^ (1#20 <<< k)) ≠ 0) ∧
  (∀ (line : Line) (b0 b1 b2 : Byte), (cprRecord line b0 b1 b2).crcOk = true → ∀ k < 8,
    (cprRecord line (b0 ^^^ (1#8 <<< k)) b1 b2).crcOk = false ∧
    (4 ≤ k → (cprRecord line b0 (b1 ^^^ (1#8 <<< k)) b2).crcOk = false) ∧
    (k < 4 → (cprRecord line b0 b1 (b2 ^^^ (1#8 <<< k))).crcOk = false) ∧
    (k < 4 → ((cprRecord line b0 (b1 ^^^ (1#8 <<< k)) b2).crcOk = false ↔ b2.getLsbD (k + 4) = false)) ∧
    (k < 4 → ((cprRecord line b0 b1 (b2 ^^^ (1#8 <<< (k + 4)))).crcOk = false ↔ b1.getLsbD k = false)))

/-- 44_wss_cpr1204.md R216: the overlapping bits are ORed, so setting `p[2][7:4]` where `p[1][3:0]` is set changes
nothing, and `p[2][7:4]` sets group bits of its own. -/
def Obligations.CprOverlap : Prop :=
  ∀ (line : Line) (b0 b1 b2 : Byte) (s : State),
    exec (.decCpr1204 line b0 b1 (b2 ||| (b1 <<< 4))) s = exec (.decCpr1204 line b0 b1 b2) s ∧
    ∀ k < 4, (cprGroup b0 b1 b2).getLsbD (k + 4) = (b1.getLsbD k || b2.getLsbD (k + 4))

/-! ### Teletext and IDL (45_ttx_addressing.md, 46_idl.md) -/

/-- 00_scope.md R13, R14, 45_ttx_addressing.md R239: the default Hamming 8/4 decode gives the nibble whose code byte is
within one bit, and 144 byte values decode; `unham16` joins two nibbles, the first lowest; the address bytes of a magazine
and packet decode to its address under the default code. -/
def Obligations.HammingDecode : Prop :=
  (∀ (b : Byte) (n : BitVec 4),
    unham8 defaultConfig b = some n ↔
      ones (b ^^^ BitVec.ofNat 8 ([0x15, 0x02, 0x49, 0x5E, 0x64, 0x73, 0x38, 0x2F,
        0xD0, 0xC7, 0x8C, 0x9B, 0xA1, 0xB6, 0xFD, 0xEA].getD n.toNat 0)) ≤ 1) ∧
  (List.range 256).countP (fun b => (unham8 defaultConfig (BitVec.ofNat 8 b)).isSome) = 144 ∧
  (∀ (cfg : Config) (b0 b1 : Byte),
    (unham8 cfg b0 = none ∨ unham8 cfg b1 = none → unham16 cfg b0 b1 = none) ∧
    (∀ n0 n1, unham8 cfg b0 = some n0 → unham8 cfg b1 = some n1 →
      unham16 cfg b0 b1 = some (BitVec.ofNat 8 (n0.toNat + 16 * n1.toNat)))) ∧
  (∀ m n : Nat, 1 ≤ m → m ≤ 8 → n < 32 →
    unham16 defaultConfig (ham8 (BitVec.ofNat 4 ((m % 8 + 8 * n) % 16))) (ham8 (BitVec.ofNat 4 ((m % 8 + 8 * n) / 16))) =
      some (BitVec.ofNat 8 (m % 8 + 8 * n)))

/-- 45_ttx_addressing.md R230: a Teletext request runs the row of the opcode table that matches its address: the
address error, packet 8/30, another packet 30 or 31, or a packet 0..29. -/
def Obligations.TeletextRunsItsRow : Prop :=
  ∀ (line : Line) (p : Payload) (s : State), line.toNat ≤ 1023 →
    ∃ row t, decode s.cfg (.ttxaddr line p) = .ok row ∧ exec row s = .next t ∧ exec (.decTtx line p) s = .next t ∧
      match unham16 s.cfg p[0] p[1] with
      | none => row = .ttxHammingError line p[0] p[1]
      | some a =>
        row =
          if magazineOf a = 8 ∧ field a 7 3 = 30 then .ttx830 line p
          else if 30 ≤ field a 7 3 then .ttxIdl line a p
          else .ttx line a p

/-- 45_ttx_addressing.md R232, R235, R236: the records of an address error, of packet 8/30 and of a plain packet; no
register is written. -/
def Obligations.TeletextResults : Prop :=
  ∀ (line : Line) (p : Payload) (b0 b1 : Byte) (a : BitVec 8) (s : State),
    (unham16 s.cfg b0 b1 = none →
      exec (.ttxHammingError line b0 b1) s = .next
        { s with
          rsp := some (.error line .hammingError 1 (BitVec.ofNat 16 (256 * b0.toNat + b1.toNat)))
          rdata := none }) ∧
    exec (.ttx830 line p) s = .next { s with rsp := some (.ttx830 line (afterAddress p)), rdata := none } ∧
    (field a 7 3 ≤ 29 →
      exec (.ttx line a p) s = .next
        { s with
          rsp := some (.ttx line (BitVec.ofNat 4 (magazineOf a)) (BitVec.ofNat 5 (field a 7 3)) (afterAddress p))
          rdata := none })

/-- 46_idl.md R250, R251, R252: an IDL packet runs the row of its channel's class; the 16 channels are partitioned, with
channel 7 under its parameter. -/
def Obligations.IdlRunsItsRow : Prop :=
  ∀ (line : Line) (a : BitVec 8) (p : Payload) (s : State),
    ∃ row t, decode s.cfg (.idlch line a p) = .ok row ∧ exec row s = .next t ∧ exec (.ttxIdl line a p) s = .next t ∧
      (field a 3 0 = 0 → row = .idlCh0 line a p) ∧
      (field a 3 0 ∈ [5, 13] → row = .idlDatavideo5or13 line a p) ∧
      (field a 3 0 ∈ [6, 14] → row = .idlDatavideo6or14 line a p) ∧
      (field a 3 0 ∈ [8, 9, 10, 11] → row = .idlFormatted8to11 line a p) ∧
      (field a 3 0 = 15 → row = .idlFormatted15 line a p) ∧
      (field a 3 0 ∈ [4, 12] → row = .idlLbra4or12 line a p) ∧
      (field a 3 0 = 7 → row = if s.cfg.idlCh7Lbra then .idlLbra7 line a p else .idlUnclassified line a p) ∧
      (field a 3 0 ∈ [1, 2, 3] → row = .idlUnclassified line a p)

/-- 46_idl.md R253, R254, R261: the channels whose header has no Hamming byte: channel 0, Low-Bit-Rate-Audio, and the
unlisted channels. -/
def Obligations.IdlPlainResults : Prop :=
  ∀ (line : Line) (a : BitVec 8) (p : Payload) (s : State),
    (field a 3 0 = 0 →
      exec (.idlCh0 line a p) s = .next
        { s with rsp := some (idlOf line a p (.malformed .channel0 none none)), rdata := none }) ∧
    (field a 3 0 ∈ [4, 12] →
      exec (.idlLbra4or12 line a p) s = .next
        { s with rsp := some (idlOf line a p .lowBitRateAudio), rdata := none }) ∧
    (field a 3 0 = 7 → s.cfg.idlCh7Lbra = true →
      exec (.idlLbra7 line a p) s = .next
        { s with rsp := some (idlOf line a p .lowBitRateAudio), rdata := none }) ∧
    (field a 3 0 ∈ [1, 2, 3] ∨ (field a 3 0 = 7 ∧ s.cfg.idlCh7Lbra = false) →
      exec (.idlUnclassified line a p) s = .next
        { s with rsp := some (idlOf line a p (.unclassified none)), rdata := none })

/-- 45_ttx_addressing.md R238, 46_idl.md R253: the only packet-30-or-31 address with channel 0 is 8/30, and no Teletext
request gives a Malformed(Channel0) record. -/
def Obligations.ChannelZeroUnreachable : Prop :=
  (∀ a : BitVec 8, 30 ≤ field a 7 3 → (field a 3 0 = 0 ↔ a = 0xF0)) ∧
  (∀ (line l : Line) (p : Payload) (s t : State) (m : BitVec 4) (k : BitVec 5) (c : BitVec 4)
      (ft ial : Option (BitVec 4)) (d : TtxData),
    exec (.decTtx line p) s = .next t → t.rsp ≠ some (.idl l m k c (.malformed .channel0 ft ial) d))

/-- 46_idl.md R255: Datavideo, both rows: the packet address from three nibbles, or the Hamming error of `pa`. -/
def Obligations.DatavideoResult : Prop :=
  ∀ (line : Line) (a : BitVec 8) (p : Payload) (s : State) (i : Instr),
    (field a 3 0 ∈ [5, 13] ∧ i = .idlDatavideo5or13 line a p) ∨
      (field a 3 0 ∈ [6, 14] ∧ i = .idlDatavideo6or14 line a p) →
    (unham8 s.cfg p[3] = none ∨ unham8 s.cfg p[4] = none ∨ unham8 s.cfg p[5] = none →
      exec i s = .next { s with rsp := some (.error line .hammingError 2 (BitVec.ofNat 16 a.toNat)), rdata := none }) ∧
    (∀ n0 n1 n2, unham8 s.cfg p[3] = some n0 → unham8 s.cfg p[4] = some n1 → unham8 s.cfg p[5] = some n2 →
      exec i s = .next
        { s with
          rsp := some (idlOf line a p (.datavideo (BitVec.ofNat 12 (n0.toNat + 16 * n1.toNat + 256 * n2.toNat))))
          rdata := none })

/-- 46_idl.md R256: the formatted channels, both rows: the Hamming error of `ft`, or the row of the opcode table that
matches the format type. -/
def Obligations.FormattedRunsItsRow : Prop :=
  ∀ (line : Line) (a : BitVec 8) (p : Payload) (s : State) (i : Instr),
    (field a 3 0 ∈ [8, 9, 10, 11] ∧ i = .idlFormatted8to11 line a p) ∨
      (field a 3 0 = 15 ∧ i = .idlFormatted15 line a p) →
    (unham8 s.cfg p[2] = none →
      exec i s = .next { s with rsp := some (.error line .hammingError 3 (BitVec.ofNat 16 a.toNat)), rdata := none }) ∧
    (∀ ft, unham8 s.cfg p[2] = some ft →
      ∃ row t, decode s.cfg (.idlft line a ft p) = .ok row ∧ exec row s = .next t ∧ exec i s = .next t ∧
        (ft.toNat % 2 = 0 → row = .idlFormatA line a ft p) ∧
        (ft.toNat % 4 = 1 → row = .idlFormatB line a ft p) ∧
        (ft.toNat % 4 = 3 → row = .idlFtOther line a ft p))

/-- 46_idl.md R257, R258: Format A: the Hamming error of `ial`, or the row of the opcode table that matches `ial`; a
reserved address length gives Malformed without a look at the bytes after it. -/
def Obligations.FormatARunsItsRow : Prop :=
  ∀ (line : Line) (a : BitVec 8) (ft : BitVec 4) (p : Payload) (s : State), ft.toNat % 2 = 0 →
    (unham8 s.cfg p[3] = none →
      exec (.idlFormatA line a ft p) s = .next
        { s with rsp := some (.error line .hammingError 4 (BitVec.ofNat 16 a.toNat)), rdata := none }) ∧
    (∀ ial, unham8 s.cfg p[3] = some ial →
      ∃ row t, decode s.cfg (.idlial line a ft ial p) = .ok row ∧ exec row s = .next t ∧
        exec (.idlFormatA line a ft p) s = .next t ∧
        row = if field ial 2 0 = 7 then .idlSpaReserved line a ft ial p else .idlSpa line a ft ial p) ∧
    (∀ ial, field ial 2 0 = 7 → exec (.idlSpaReserved line a ft ial p) s = .next
      { s with rsp := some (idlOf line a p (.malformed .spaLengthReserved (some ft) (some ial))), rdata := none })

/-- 46_idl.md R257: the service packet address of `spa_length` nibbles, the first least significant, or the Hamming
error of `spa` when one of them is not correctable. -/
def Obligations.ServicePacketAddress : Prop :=
  ∀ (line : Line) (a : BitVec 8) (ft ial : BitVec 4) (p : Payload) (s : State), ft.toNat % 2 = 0 →
    field ial 2 0 ≤ 6 →
    ((∃ k, k < field ial 2 0 ∧ unham8 s.cfg (p.toList.getD (4 + k) 0) = none) →
      exec (.idlSpa line a ft ial p) s = .next
        { s with rsp := some (.error line .hammingError 5 (BitVec.ofNat 16 a.toNat)), rdata := none }) ∧
    (∀ ns : List (BitVec 4), ns.length = field ial 2 0 →
      (∀ k, k < field ial 2 0 → unham8 s.cfg (p.toList.getD (4 + k) 0) = ns[k]?) →
      exec (.idlSpa line a ft ial p) s = .next
        { s with
          rsp := some (idlOf line a p
            (.formatA ft ial (BitVec.ofNat 3 (field ial 2 0)) (BitVec.ofNat 24 (nibbleSum ns))))
          rdata := none })

/-- 46_idl.md R259, R260: Format B with its application number and id, or the Hamming error of `ai`; the other format
types are passed through. -/
def Obligations.FormatBAndOtherResults : Prop :=
  ∀ (line : Line) (a : BitVec 8) (ft : BitVec 4) (p : Payload) (s : State),
    (ft.toNat % 4 = 1 → unham8 s.cfg p[3] = none →
      exec (.idlFormatB line a ft p) s = .next
        { s with rsp := some (.error line .hammingError 6 (BitVec.ofNat 16 a.toNat)), rdata := none }) ∧
    (∀ ai, ft.toNat % 4 = 1 → unham8 s.cfg p[3] = some ai →
      exec (.idlFormatB line a ft p) s = .next
        { s with rsp := some (idlOf line a p (.formatB ft (BitVec.ofNat 2 (field ft 3 2)) ai)), rdata := none }) ∧
    (ft.toNat % 4 = 3 →
      exec (.idlFtOther line a ft p) s = .next
        { s with rsp := some (idlOf line a p (.unclassified (some ft))), rdata := none })

/-! ### Decoding -/

/-- Decoding the word of a well-formed instruction gives the instruction, for every instruction with every operand,
under every configuration (30_encoding.md R94). -/
def Obligations.DecodeEncodeAgree : Prop :=
  ∀ (cfg : Config) (i : Instr), WellFormed cfg i = true → decode cfg (encode i) = .ok i

/-- Words written out from the encodings of the spec decode to the instructions they stand for. -/
def Obligations.SpecWordsDecode : Prop :=
  decode defaultConfig (.req ⟨0x00000000, padPayload []⟩) = .ok (.nop 0) ∧
  decode defaultConfig (.req ⟨0x00000034, padPayload []⟩) = .ok (.reqSizeMismatch 0 4 3) ∧
  decode defaultConfig (.req ⟨0x001000D4, padPayload []⟩) = .ok (.decVps 16 (Vector.replicate 13 0)) ∧
  decode defaultConfig (.cc 21 0x142C) = .ok (.ccControl 21 0x14 0x2C) ∧
  decode defaultConfig (.cc 21 0x1060) = .ok (.ccPacUnassigned 21 0x10 0x60) ∧
  decode defaultConfig (.cc 21 0x1470) = .ok (.ccPac 21 0x14 0x70) ∧
  decode defaultConfig (.ttxaddr 7 (padPayload [0x15, 0xEA])) = .ok (.ttx830 7 (padPayload [0x15, 0xEA])) ∧
  decode defaultConfig (.ttxaddr 7 (padPayload [0x5E, 0xEA])) = .ok (.ttxIdl 7 0xF3 (padPayload [0x5E, 0xEA]))

end
end

