-- ==== Sys2Proof/Laws/Decode.lean ====
section
/-!
SUPPORT. What the masks of the opcode table test, said once in terms of the fields: the low ten bits of a request word,
the two halves of a caption word, and the fields of the Teletext and IDL words.
-/

namespace Sys2Proof

open Sys2Proof.Machine

/-! ### Request words -/

/-- A request word is its four fields. -/
theorem reqFields_append (w : BitVec 32) : reqLine w ++ reqRsvd w ++ reqLen w ++ reqTag w = w := by
  apply BitVec.eq_of_getLsbD_eq
  intro i hi
  simp only [reqLine, reqRsvd, reqLen, reqTag, BitVec.getLsbD_append, BitVec.getLsbD_extractLsb']
  split
  · simp_all
  · split
    · have : 4 + (i - 4) = i := by omega
      simp_all
    · split
      · have : 10 + (i - 4 - 6) = i := by omega
        simp_all
      · have : 16 + (i - 4 - 6 - 6) = i := by omega
        have h : i - 4 - 6 - 6 < 16 := by omega
        simp_all

/-- The bits of a request word, field by field. -/
theorem reqWord_getLsbD (line : Line) (rsvd len : BitVec 6) (tag : BitVec 4) (i : Nat) :
    BitVec.getLsbD (w := 32) (line ++ rsvd ++ len ++ tag) i =
      if i < 4 then tag.getLsbD i else if i < 10 then len.getLsbD (i - 4)
      else if i < 16 then rsvd.getLsbD (i - 10) else line.getLsbD (i - 16) := by
  show BitVec.getLsbD (w := 16 + 6 + 6 + 4) (line ++ rsvd ++ len ++ tag) i = _
  simp only [BitVec.getLsbD_append]
  have e1 : i - 4 - 6 = i - 10 := by omega
  have e2 : i - 10 - 6 = i - 16 := by omega
  rw [e1, e2]
  repeat' split
  all_goals first | rfl | omega

@[simp] theorem reqLine_append (line : Line) (rsvd len : BitVec 6) (tag : BitVec 4) :
    reqLine (line ++ rsvd ++ len ++ tag) = line := by
  apply BitVec.eq_of_getLsbD_eq
  intro i hi
  have h4 : 16 + i - 16 = i := by omega
  rw [reqLine, BitVec.getLsbD_extractLsb', reqWord_getLsbD, if_neg (by omega), if_neg (by omega),
    if_neg (by omega), h4]
  simp [hi]

@[simp] theorem reqLen_append (line : Line) (rsvd len : BitVec 6) (tag : BitVec 4) :
    reqLen (line ++ rsvd ++ len ++ tag) = len := by
  apply BitVec.eq_of_getLsbD_eq
  intro i hi
  have h4 : 4 + i - 4 = i := by omega
  rw [reqLen, BitVec.getLsbD_extractLsb', reqWord_getLsbD, if_neg (by omega), if_pos (by omega), h4]
  simp [hi]

@[simp] theorem reqTag_append (line : Line) (rsvd len : BitVec 6) (tag : BitVec 4) :
    reqTag (line ++ rsvd ++ len ++ tag) = tag := by
  apply BitVec.eq_of_getLsbD_eq
  intro i hi
  have h4 : 0 + i = i := by omega
  rw [reqTag, BitVec.getLsbD_extractLsb', reqWord_getLsbD, if_pos (by omega), h4]
  simp [hi]

@[simp] theorem reqLine_reqWord (line : Line) (len : BitVec 6) (tag : BitVec 4) :
    reqLine (reqWord line len tag) = line := reqLine_append line 0 len tag

@[simp] theorem reqLen_reqWord (line : Line) (len : BitVec 6) (tag : BitVec 4) :
    reqLen (reqWord line len tag) = len := reqLen_append line 0 len tag

@[simp] theorem reqTag_reqWord (line : Line) (len : BitVec 6) (tag : BitVec 4) :
    reqTag (reqWord line len tag) = tag := reqTag_append line 0 len tag

/-- A mask over the low ten bits tests `LEN` and `TAG` only. -/
theorem rowMatches_low (w : BitVec 32) (m p : BitVec 10) :
    rowMatches w (m.setWidth 32) (p.setWidth 32) = rowMatches (reqLen w ++ reqTag w) m p := by
  have key : w &&& m.setWidth 32 = ((reqLen w ++ reqTag w) &&& m).setWidth 32 := by
    apply BitVec.eq_of_getLsbD_eq
    intro i hi
    simp only [reqLen, reqTag, BitVec.getLsbD_and, BitVec.getLsbD_setWidth, BitVec.getLsbD_append,
      BitVec.getLsbD_extractLsb']
    by_cases h : i < 10
    · split
      · simp_all
      · have h1 : 4 + (i - 4) = i := by omega
        have h2 : i - 4 < 6 := by omega
        simp_all
    · have : m.getLsbD i = false := BitVec.getLsbD_of_ge m i (by omega)
      simp [this]
  have inj : ∀ a b : BitVec 10, (a.setWidth 32 == b.setWidth 32) = (a == b) := by
    intro a b
    rw [Bool.eq_iff_iff]
    simp only [beq_iff_eq]
    constructor
    · intro h
      have := congrArg (BitVec.setWidth 10) h
      simpa using this
    · rintro rfl; rfl
  simp only [rowMatches, key, inj]

/-- The ten-bit tests of the REQ rows, as tests of `LEN` and `TAG`. -/
theorem tenBitRows : ∀ (len : BitVec 6) (tag : BitVec 4),
    [rowMatches (len ++ tag) 0xF#10 0x0#10, rowMatches (len ++ tag) 0x3FF#10 0x2A1#10,
      rowMatches (len ++ tag) 0x3FF#10 0x22#10, rowMatches (len ++ tag) 0x3FF#10 0x23#10,
      rowMatches (len ++ tag) 0x3FF#10 0xD4#10, rowMatches (len ++ tag) 0x3FF#10 0x25#10,
      rowMatches (len ++ tag) 0x3FF#10 0x36#10, rowMatches (len ++ tag) 0xF#10 0x7#10,
      rowMatches (len ++ tag) 0x8#10 0x8#10] =
    [decide (tag = 0), decide (tag = 1 ∧ len = 42), decide (tag = 2 ∧ len = 2), decide (tag = 3 ∧ len = 2),
      decide (tag = 4 ∧ len = 13), decide (tag = 5 ∧ len = 2), decide (tag = 6 ∧ len = 3), decide (tag = 7),
      decide (8 ≤ tag)] := by
  decide +kernel

/-- The row of a request word, from its tag and length (30_encoding.md R71, 40_dispatch.md R100). -/
theorem decodeReq_eq (r : Request) :
    decodeReq r =
      (if reqTag r.word = 0 then .nop (reqLine r.word)
       else if reqTag r.word = 1 ∧ reqLen r.word = 42 then .decTtx (reqLine r.word) r.data
       else if reqTag r.word = 2 ∧ reqLen r.word = 2 then .decCc525 (reqLine r.word) r.data[0] r.data[1]
       else if reqTag r.word = 3 ∧ reqLen r.word = 2 then .decCc625 (reqLine r.word) r.data[0] r.data[1]
       else if reqTag r.word = 4 ∧ reqLen r.word = 13 then .decVps (reqLine r.word) (vpsBytes r.data)
       else if reqTag r.word = 5 ∧ reqLen r.word = 2 then .decWss625 (reqLine r.word) r.data[0] r.data[1]
       else if reqTag r.word = 6 ∧ reqLen r.word = 3 then
         .decCpr1204 (reqLine r.word) r.data[0] r.data[1] r.data[2]
       else if reqTag r.word = 7 then .nopRsv7 (reqLine r.word)
       else if 8 ≤ reqTag r.word then .nopRsv8to15 (reqLine r.word) ((reqTag r.word).setWidth 3)
       else .reqSizeMismatch (reqLine r.word) (reqTag r.word) (reqLen r.word)) := by
  have low := fun m p => rowMatches_low r.word m p
  have t0 : rowMatches r.word 0xF 0x0 = rowMatches (reqLen r.word ++ reqTag r.word) 0xF#10 0x0#10 := low 0xF#10 0x0#10
  have t1 : rowMatches r.word 0x3FF 0x2A1 = rowMatches (reqLen r.word ++ reqTag r.word) 0x3FF#10 0x2A1#10 := low 0x3FF#10 0x2A1#10
  have t2 : rowMatches r.word 0x3FF 0x22 = rowMatches (reqLen r.word ++ reqTag r.word) 0x3FF#10 0x22#10 := low 0x3FF#10 0x22#10
  have t3 : rowMatches r.word 0x3FF 0x23 = rowMatches (reqLen r.word ++ reqTag r.word) 0x3FF#10 0x23#10 := low 0x3FF#10 0x23#10
  have t4 : rowMatches r.word 0x3FF 0xD4 = rowMatches (reqLen r.word ++ reqTag r.word) 0x3FF#10 0xD4#10 := low 0x3FF#10 0xD4#10
  have t5 : rowMatches r.word 0x3FF 0x25 = rowMatches (reqLen r.word ++ reqTag r.word) 0x3FF#10 0x25#10 := low 0x3FF#10 0x25#10
  have t6 : rowMatches r.word 0x3FF 0x36 = rowMatches (reqLen r.word ++ reqTag r.word) 0x3FF#10 0x36#10 := low 0x3FF#10 0x36#10
  have t7 : rowMatches r.word 0xF 0x7 = rowMatches (reqLen r.word ++ reqTag r.word) 0xF#10 0x7#10 := low 0xF#10 0x7#10
  have t8 : rowMatches r.word 0x8 0x8 = rowMatches (reqLen r.word ++ reqTag r.word) 0x8#10 0x8#10 := low 0x8#10 0x8#10
  have e8 : r.word.extractLsb' 0 3 = (reqTag r.word).setWidth 3 := by
    apply BitVec.eq_of_getLsbD_eq
    intro i hi
    have : i < 4 := by omega
    simp [reqTag, hi, this]
  simp only [decodeReq, t0, t1, t2, t3, t4, t5, t6, t7, t8, e8]
  have rows := tenBitRows (reqLen r.word) (reqTag r.word)
  simp only [List.cons.injEq, and_true] at rows
  obtain ⟨u0, u1, u2, u3, u4, u5, u6, u7, u8⟩ := rows
  simp only [u0, u1, u2, u3, u4, u5, u6, u7, u8, decide_eq_true_eq]

/-! ### Caption words -/

/-- The bits of a caption word. -/
theorem ccWord_getLsbD (c1 c2 : Char7) (i : Nat) :
    (ccWord c1 c2).getLsbD i =
      if i < 7 then c2.getLsbD i else if i < 8 then false else c1.getLsbD (i - 8) := by
  show BitVec.getLsbD (w := 1 + 7 + 1 + 7) (0#1 ++ c1 ++ 0#1 ++ c2) i = _
  simp only [BitVec.getLsbD_append, BitVec.getLsbD_zero]
  have e1 : i - 7 - 1 = i - 8 := by omega
  rw [e1]
  repeat' split
  all_goals first | rfl | omega | exact (BitVec.getLsbD_of_ge c1 _ (by omega)).symm

@[simp] theorem ccWord_c1 (c1 c2 : Char7) : (ccWord c1 c2).extractLsb' 8 7 = c1 := by
  apply BitVec.eq_of_getLsbD_eq
  intro i hi
  have h4 : 8 + i - 8 = i := by omega
  rw [BitVec.getLsbD_extractLsb', ccWord_getLsbD, if_neg (by omega), if_neg (by omega), h4]
  simp [hi]

@[simp] theorem ccWord_c2 (c1 c2 : Char7) : (ccWord c1 c2).extractLsb' 0 7 = c2 := by
  apply BitVec.eq_of_getLsbD_eq
  intro i hi
  have h4 : 0 + i = i := by omega
  rw [BitVec.getLsbD_extractLsb', ccWord_getLsbD, if_pos (by omega), h4]
  simp [hi]

/-- A caption word determines its two characters. -/
theorem ccWord_inj (a b c d : Char7) : ccWord a b = ccWord c d ↔ a = c ∧ b = d := by
  constructor
  · intro h
    have h1 := congrArg (BitVec.extractLsb' 8 7) h
    have h2 := congrArg (BitVec.extractLsb' 0 7) h
    simpa using And.intro h1 h2
  · rintro ⟨rfl, rfl⟩; rfl

/-- A mask over a caption word tests each character with its half of the mask. -/
theorem rowMatches_ccWord (c1 c2 m1 m2 p1 p2 : Char7) :
    rowMatches (ccWord c1 c2) (ccWord m1 m2) (ccWord p1 p2) = (rowMatches c1 m1 p1 && rowMatches c2 m2 p2) := by
  have key : ccWord c1 c2 &&& ccWord m1 m2 = ccWord (c1 &&& m1) (c2 &&& m2) := by
    apply BitVec.eq_of_getLsbD_eq
    intro i hi
    simp only [BitVec.getLsbD_and, ccWord_getLsbD]
    split
    · rfl
    · split <;> rfl
  rw [Bool.eq_iff_iff]
  simp only [rowMatches, key, beq_iff_eq, Bool.and_eq_true, ccWord_inj]

/-- What the masks of the CC rows test of the first character. -/
theorem c1Rows : ∀ c : Char7,
    [rowMatches c 0x7F 0x0, rowMatches c 0x0 0x0, rowMatches c 0x7 0x0, rowMatches c 0x7 0x1, rowMatches c 0x6 0x2,
      rowMatches c 0x6 0x4, rowMatches c 0x7 0x6, rowMatches c 0x7 0x7] =
    [decide (c = 0), true, decide (ccA7 c = 0), decide (ccA7 c = 1), decide (ccA7 c = 2 ∨ ccA7 c = 3),
      decide (ccA7 c = 4 ∨ ccA7 c = 5), decide (ccA7 c = 6), decide (ccA7 c = 7)] := by
  decide +kernel

/-- What the masks of the CC rows test of the second character. -/
theorem c2Rows : ∀ c : Char7,
    [rowMatches c 0x0 0x0, rowMatches c 0x60 0x0, rowMatches c 0x40 0x40, rowMatches c 0x70 0x20,
      rowMatches c 0x70 0x30, rowMatches c 0x60 0x20, rowMatches c 0x7F 0x21, rowMatches c 0x7F 0x22,
      rowMatches c 0x7F 0x23, rowMatches c 0x7F 0x2D, rowMatches c 0x7F 0x2E, rowMatches c 0x7F 0x2F] =
    [true, decide (c < 0x20), decide (0x40 ≤ c), decide (0x20 ≤ c ∧ c ≤ 0x2F),
      decide (0x30 ≤ c ∧ c ≤ 0x3F), decide (0x20 ≤ c ∧ c ≤ 0x3F), decide (c = 0x21), decide (c = 0x22),
      decide (c = 0x23), decide (c = 0x2D), decide (c = 0x2E), decide (c = 0x2F)] := by
  decide +kernel

/-- The row of a caption word, from its two characters (41_caption.md R129 to R145). -/
theorem decodeCc_eq (cfg : Config) (line : Line) (c1 c2 : Char7) :
    decodeCc cfg line (ccWord c1 c2) = .ok
      (if c1 = 0 then .ccNull line c1 c2
       else if 0x20 ≤ c1 then .ccText line c1 c2
       else if c2 < 0x20 then .ccInvalidC2 line c1 c2
       else if 0x40 ≤ c2 ∧ pacRow cfg c1 c2 = 0 then .ccPacUnassigned line c1 c2
       else if 0x40 ≤ c2 then .ccPac line c1 c2
       else if ccA7 c1 = 0 ∧ 0x20 ≤ c2 ∧ c2 ≤ 0x2F then .ccBackground line c1 c2
       else if ccA7 c1 = 1 ∧ 0x20 ≤ c2 ∧ c2 ≤ 0x2F then .ccMidrow line c1 c2
       else if ccA7 c1 = 1 ∧ 0x30 ≤ c2 ∧ c2 ≤ 0x3F then .ccSpecial line c1 c2
       else if (ccA7 c1 = 2 ∨ ccA7 c1 = 3) ∧ 0x20 ≤ c2 ∧ c2 ≤ 0x3F then .ccExtended line c1 c2
       else if (ccA7 c1 = 4 ∨ ccA7 c1 = 5) ∧ 0x20 ≤ c2 ∧ c2 ≤ 0x2F then .ccControl line c1 c2
       else if ccA7 c1 = 6 ∧ 0x20 ≤ c2 ∧ c2 ≤ 0x3F then .ccReservedA76 line c1 c2
       else if ccA7 c1 = 7 ∧ c2 = 0x21 then .ccTo1 line c1 c2
       else if ccA7 c1 = 7 ∧ c2 = 0x22 then .ccTo2 line c1 c2
       else if ccA7 c1 = 7 ∧ c2 = 0x23 then .ccTo3 line c1 c2
       else if ccA7 c1 = 7 ∧ c2 = 0x2D then .ccBt line c1 c2
       else if ccA7 c1 = 7 ∧ c2 = 0x2E then .ccFa line c1 c2
       else if ccA7 c1 = 7 ∧ c2 = 0x2F then .ccFau line c1 c2
       else .ccUnknown line c1 c2) := by
  have r1 := c1Rows c1
  have r2 := c2Rows c2
  simp only [List.cons.injEq, and_true] at r1 r2
  obtain ⟨a0, a1, a2, a3, a4, a5, a6, a7⟩ := r1
  obtain ⟨b0, b1, b2, b3, b4, b5, b6, b7, b8, b9, b10, b11⟩ := r2
  have top : rowMatches (ccWord c1 c2) 0x8080 0x0 = true := by
    have : ccWord c1 c2 &&& 0x8080#16 = 0#16 := by
      apply BitVec.eq_of_getLsbD_eq
      intro i hi
      simp only [BitVec.getLsbD_and, ccWord_getLsbD]
      have : i < 16 := hi
      interval_cases i <;> simp [BitVec.getLsbD_of_ge]
    simp only [rowMatches, beq_iff_eq]
    exact this
  have q := fun m1 m2 p1 p2 => rowMatches_ccWord c1 c2 m1 m2 p1 p2
  have q0 : rowMatches (ccWord c1 c2) 0x7F00 0x0 = _ := q 0x7f 0x0 0x0 0x0
  rw [a0, b0] at q0
  have q1 : rowMatches (ccWord c1 c2) 0x60 0x0 = _ := q 0x0 0x60 0x0 0x0
  rw [a1, b1] at q1
  have q2 : rowMatches (ccWord c1 c2) 0x40 0x40 = _ := q 0x0 0x40 0x0 0x40
  rw [a1, b2] at q2
  have q3 : rowMatches (ccWord c1 c2) 0x770 0x20 = _ := q 0x7 0x70 0x0 0x20
  rw [a2, b3] at q3
  have q4 : rowMatches (ccWord c1 c2) 0x770 0x120 = _ := q 0x7 0x70 0x1 0x20
  rw [a3, b3] at q4
  have q5 : rowMatches (ccWord c1 c2) 0x770 0x130 = _ := q 0x7 0x70 0x1 0x30
  rw [a3, b4] at q5
  have q6 : rowMatches (ccWord c1 c2) 0x660 0x220 = _ := q 0x6 0x60 0x2 0x20
  rw [a4, b5] at q6
  have q7 : rowMatches (ccWord c1 c2) 0x670 0x420 = _ := q 0x6 0x70 0x4 0x20
  rw [a5, b3] at q7
  have q8 : rowMatches (ccWord c1 c2) 0x760 0x620 = _ := q 0x7 0x60 0x6 0x20
  rw [a6, b5] at q8
  have q9 : rowMatches (ccWord c1 c2) 0x77F 0x721 = _ := q 0x7 0x7f 0x7 0x21
  rw [a7, b6] at q9
  have q10 : rowMatches (ccWord c1 c2) 0x77F 0x722 = _ := q 0x7 0x7f 0x7 0x22
  rw [a7, b7] at q10
  have q11 : rowMatches (ccWord c1 c2) 0x77F 0x723 = _ := q 0x7 0x7f 0x7 0x23
  rw [a7, b8] at q11
  have q12 : rowMatches (ccWord c1 c2) 0x77F 0x72D = _ := q 0x7 0x7f 0x7 0x2d
  rw [a7, b9] at q12
  have q13 : rowMatches (ccWord c1 c2) 0x77F 0x72E = _ := q 0x7 0x7f 0x7 0x2e
  rw [a7, b10] at q13
  have q14 : rowMatches (ccWord c1 c2) 0x77F 0x72F = _ := q 0x7 0x7f 0x7 0x2f
  rw [a7, b11] at q14
  simp only [decodeCc, ccWord_c1, ccWord_c2, top, Bool.not_true, Bool.false_eq_true, if_false, q0, q1, q2, q3, q4, q5, q6, q7, q8, q9, q10, q11, q12, q13, q14,
    Bool.and_eq_true, decide_eq_true_eq, beq_iff_eq, true_and, and_true, apply_ite Except.ok]
  rfl

/-! ### Teletext and IDL words -/

/-- What the TTXADDR rows test, and the same test by magazine and packet (45_ttx_addressing.md R230). -/
theorem ttxRows : ∀ a : BitVec 8,
    [rowMatches a 0xFF 0xF0, rowMatches a 0xF0 0xF0] = [decide (a = 0xF0), decide (30 ≤ ttxPacket a)] ∧
    (ttxMagazine a = 8 ∧ ttxPacket a = 30 ↔ a = 0xF0) ∧
    (ttxPacket a = 30 ∨ ttxPacket a = 31 ↔ 30 ≤ ttxPacket a) := by
  decide +kernel

/-- What the IDLCH rows test (46_idl.md R251). -/
theorem idlRows : ∀ ch : BitVec 4,
    [rowMatches ch 0xF 0x0, rowMatches ch 0x7 0x5, rowMatches ch 0x7 0x6, rowMatches ch 0xC 0x8,
      rowMatches ch 0xF 0xF, rowMatches ch 0x7 0x4, rowMatches ch 0xF 0x7] =
    [decide (ch = 0), decide (ch = 5 ∨ ch = 13), decide (ch = 6 ∨ ch = 14),
      decide (ch = 8 ∨ ch = 9 ∨ ch = 10 ∨ ch = 11), decide (ch = 15), decide (ch = 4 ∨ ch = 12), decide (ch = 7)] := by
  decide +kernel

/-- What the IDLFT and IDLIAL rows test (46_idl.md R256, R258). -/
theorem nibbleRows : ∀ n : BitVec 4,
    [rowMatches n 0x1 0x0, rowMatches n 0x3 0x1, rowMatches n 0x7 0x7] =
    [decide (n.getLsbD 0 = false), decide (n.extractLsb' 0 2 = 1), decide (idlSpaLength n = 7)] := by
  decide +kernel

theorem decodeTtxaddr_eq (cfg : Config) (line : Line) (p : Payload) :
    decodeTtxaddr cfg line p =
      (match unham16 cfg p[0] p[1] with
       | none => .ttxHammingError line p[0] p[1]
       | some a =>
         if a = 0xF0 then .ttx830 line p
         else if 30 ≤ ttxPacket a then .ttxIdl line a p
         else .ttx line a p) := by
  unfold decodeTtxaddr
  cases unham16 cfg p[0] p[1] with
  | none => rfl
  | some a =>
    have r := (ttxRows a).1
    simp only [List.cons.injEq, and_true] at r
    simp only [r.1, r.2, decide_eq_true_eq]

theorem decodeIdlch_eq (cfg : Config) (line : Line) (a : BitVec 8) (p : Payload) :
    decodeIdlch cfg line a p =
      (if idlChannel a = 0 then .idlCh0 line a p
       else if idlChannel a = 5 ∨ idlChannel a = 13 then .idlDatavideo5or13 line a p
       else if idlChannel a = 6 ∨ idlChannel a = 14 then .idlDatavideo6or14 line a p
       else if idlChannel a = 8 ∨ idlChannel a = 9 ∨ idlChannel a = 10 ∨ idlChannel a = 11 then
         .idlFormatted8to11 line a p
       else if idlChannel a = 15 then .idlFormatted15 line a p
       else if idlChannel a = 4 ∨ idlChannel a = 12 then .idlLbra4or12 line a p
       else if idlChannel a = 7 ∧ cfg.idlCh7Lbra = true then .idlLbra7 line a p
       else .idlUnclassified line a p) := by
  have r := idlRows (idlChannel a)
  simp only [List.cons.injEq, and_true] at r
  obtain ⟨r0, r1, r2, r3, r4, r5, r6⟩ := r
  simp only [decodeIdlch, r0, r1, r2, r3, r4, r5, r6, decide_eq_true_eq, Bool.and_eq_true]

theorem decodeIdlft_eq (line : Line) (a : BitVec 8) (ft : BitVec 4) (p : Payload) :
    decodeIdlft line a ft p =
      (if ft.getLsbD 0 = false then .idlFormatA line a ft p
       else if ft.extractLsb' 0 2 = 1 then .idlFormatB line a ft p
       else .idlFtOther line a ft p) := by
  have r := nibbleRows ft
  simp only [List.cons.injEq, and_true] at r
  simp only [decodeIdlft, r.1, r.2.1, decide_eq_true_eq]

theorem decodeIdlial_eq (line : Line) (a : BitVec 8) (ft ial : BitVec 4) (p : Payload) :
    decodeIdlial line a ft ial p =
      (if idlSpaLength ial = 7 then .idlSpaReserved line a ft ial p else .idlSpa line a ft ial p) := by
  have r := nibbleRows ial
  simp only [List.cons.injEq, and_true] at r
  simp only [decodeIdlial, r.2.2, decide_eq_true_eq]

/-! ### Payload buffers -/

@[simp] theorem padPayload_get (bytes : List Byte) (i : Nat) (h : i < 42) :
    (padPayload bytes)[i] = bytes.getD i 0 := by
  simp [padPayload]

/-- The 13 VPS bytes survive the padding of the data buffer. -/
theorem vpsBytes_padPayload (p : VpsPayload) : vpsBytes (padPayload p.toList) = p := by
  apply Vector.ext
  intro i hi
  have : i < 13 := hi
  interval_cases i <;> simp [vpsBytes, List.getD]

end Sys2Proof
end

