-- ==== Sys2Proof/Laws/State.lean ====
section
/-!
SUPPORT. One lemma per field per update of the state, true by rfl, so that no proof unfolds a record update.
-/

namespace Sys2Proof.Machine

/-! ### emit -/

@[simp] theorem emit_cfg (r : Record) (s : State) : (emit r s).cfg = s.cfg := rfl
@[simp] theorem emit_fault (r : Record) (s : State) : (emit r s).fault = s.fault := rfl
@[simp] theorem emit_faultCause (r : Record) (s : State) : (emit r s).faultCause = s.faultCause := rfl
@[simp] theorem emit_ccCh (r : Record) (s : State) : (emit r s).ccCh = s.ccCh := rfl
@[simp] theorem emit_vpsLbuf (r : Record) (s : State) : (emit r s).vpsLbuf = s.vpsLbuf := rfl
@[simp] theorem emit_vpsLpos (r : Record) (s : State) : (emit r s).vpsLpos = s.vpsLpos := rfl
@[simp] theorem emit_vpsLlen (r : Record) (s : State) : (emit r s).vpsLlen = s.vpsLlen := rfl
@[simp] theorem emit_vpsPrev (r : Record) (s : State) : (emit r s).vpsPrev = s.vpsPrev := rfl
@[simp] theorem emit_vpsPlen (r : Record) (s : State) : (emit r s).vpsPlen = s.vpsPlen := rfl
@[simp] theorem emit_inputs (r : Record) (s : State) : (emit r s).inputs = s.inputs := rfl
@[simp] theorem emit_pc (r : Record) (s : State) : (emit r s).pc = s.pc := rfl
@[simp] theorem emit_rsp (r : Record) (s : State) : (emit r s).rsp = some r := rfl
@[simp] theorem emit_rdata (r : Record) (s : State) : (emit r s).rdata = none := rfl

/-! ### silent -/

@[simp] theorem silent_cfg (s : State) : (silent s).cfg = s.cfg := rfl
@[simp] theorem silent_fault (s : State) : (silent s).fault = s.fault := rfl
@[simp] theorem silent_faultCause (s : State) : (silent s).faultCause = s.faultCause := rfl
@[simp] theorem silent_ccCh (s : State) : (silent s).ccCh = s.ccCh := rfl
@[simp] theorem silent_vpsLbuf (s : State) : (silent s).vpsLbuf = s.vpsLbuf := rfl
@[simp] theorem silent_vpsLpos (s : State) : (silent s).vpsLpos = s.vpsLpos := rfl
@[simp] theorem silent_vpsLlen (s : State) : (silent s).vpsLlen = s.vpsLlen := rfl
@[simp] theorem silent_vpsPrev (s : State) : (silent s).vpsPrev = s.vpsPrev := rfl
@[simp] theorem silent_vpsPlen (s : State) : (silent s).vpsPlen = s.vpsPlen := rfl
@[simp] theorem silent_inputs (s : State) : (silent s).inputs = s.inputs := rfl
@[simp] theorem silent_pc (s : State) : (silent s).pc = s.pc := rfl
@[simp] theorem silent_rsp (s : State) : (silent s).rsp = none := rfl
@[simp] theorem silent_rdata (s : State) : (silent s).rdata = none := rfl

/-! ### answer -/

@[simp] theorem answer_cfg (v : BitVec 8) (s : State) : (answer v s).cfg = s.cfg := rfl
@[simp] theorem answer_fault (v : BitVec 8) (s : State) : (answer v s).fault = s.fault := rfl
@[simp] theorem answer_faultCause (v : BitVec 8) (s : State) : (answer v s).faultCause = s.faultCause := rfl
@[simp] theorem answer_ccCh (v : BitVec 8) (s : State) : (answer v s).ccCh = s.ccCh := rfl
@[simp] theorem answer_vpsLbuf (v : BitVec 8) (s : State) : (answer v s).vpsLbuf = s.vpsLbuf := rfl
@[simp] theorem answer_vpsLpos (v : BitVec 8) (s : State) : (answer v s).vpsLpos = s.vpsLpos := rfl
@[simp] theorem answer_vpsLlen (v : BitVec 8) (s : State) : (answer v s).vpsLlen = s.vpsLlen := rfl
@[simp] theorem answer_vpsPrev (v : BitVec 8) (s : State) : (answer v s).vpsPrev = s.vpsPrev := rfl
@[simp] theorem answer_vpsPlen (v : BitVec 8) (s : State) : (answer v s).vpsPlen = s.vpsPlen := rfl
@[simp] theorem answer_inputs (v : BitVec 8) (s : State) : (answer v s).inputs = s.inputs := rfl
@[simp] theorem answer_pc (v : BitVec 8) (s : State) : (answer v s).pc = s.pc := rfl
@[simp] theorem answer_rsp (v : BitVec 8) (s : State) : (answer v s).rsp = none := rfl
@[simp] theorem answer_rdata (v : BitVec 8) (s : State) : (answer v s).rdata = some v := rfl

/-! ### latchFault -/

@[simp] theorem latchFault_cfg (c : Cause) (s : State) : (latchFault c s).cfg = s.cfg := rfl
@[simp] theorem latchFault_fault (c : Cause) (s : State) : (latchFault c s).fault = 1 := rfl
@[simp] theorem latchFault_faultCause (c : Cause) (s : State) : (latchFault c s).faultCause = (if s.fault = 0 then causeCode c else s.faultCause) := rfl
@[simp] theorem latchFault_ccCh (c : Cause) (s : State) : (latchFault c s).ccCh = s.ccCh := rfl
@[simp] theorem latchFault_vpsLbuf (c : Cause) (s : State) : (latchFault c s).vpsLbuf = s.vpsLbuf := rfl
@[simp] theorem latchFault_vpsLpos (c : Cause) (s : State) : (latchFault c s).vpsLpos = s.vpsLpos := rfl
@[simp] theorem latchFault_vpsLlen (c : Cause) (s : State) : (latchFault c s).vpsLlen = s.vpsLlen := rfl
@[simp] theorem latchFault_vpsPrev (c : Cause) (s : State) : (latchFault c s).vpsPrev = s.vpsPrev := rfl
@[simp] theorem latchFault_vpsPlen (c : Cause) (s : State) : (latchFault c s).vpsPlen = s.vpsPlen := rfl
@[simp] theorem latchFault_inputs (c : Cause) (s : State) : (latchFault c s).inputs = s.inputs := rfl
@[simp] theorem latchFault_pc (c : Cause) (s : State) : (latchFault c s).pc = s.pc := rfl
@[simp] theorem latchFault_rsp (c : Cause) (s : State) : (latchFault c s).rsp = s.rsp := rfl
@[simp] theorem latchFault_rdata (c : Cause) (s : State) : (latchFault c s).rdata = s.rdata := rfl

/-! ### labelFlush -/

@[simp] theorem labelFlush_cfg (s : State) : (labelFlush s).cfg = s.cfg := rfl
@[simp] theorem labelFlush_fault (s : State) : (labelFlush s).fault = s.fault := rfl
@[simp] theorem labelFlush_faultCause (s : State) : (labelFlush s).faultCause = s.faultCause := rfl
@[simp] theorem labelFlush_ccCh (s : State) : (labelFlush s).ccCh = s.ccCh := rfl
@[simp] theorem labelFlush_vpsLbuf (s : State) : (labelFlush s).vpsLbuf = s.vpsLbuf := rfl
@[simp] theorem labelFlush_vpsLpos (s : State) : (labelFlush s).vpsLpos = 0 := rfl
@[simp] theorem labelFlush_vpsLlen (s : State) : (labelFlush s).vpsLlen = 0 := rfl
@[simp] theorem labelFlush_vpsPrev (s : State) : (labelFlush s).vpsPrev = s.vpsLbuf := rfl
@[simp] theorem labelFlush_vpsPlen (s : State) : (labelFlush s).vpsPlen = s.vpsLlen := rfl
@[simp] theorem labelFlush_inputs (s : State) : (labelFlush s).inputs = s.inputs := rfl
@[simp] theorem labelFlush_pc (s : State) : (labelFlush s).pc = s.pc := rfl
@[simp] theorem labelFlush_rsp (s : State) : (labelFlush s).rsp = s.rsp := rfl
@[simp] theorem labelFlush_rdata (s : State) : (labelFlush s).rdata = s.rdata := rfl

/-! ### labelAppend -/

@[simp] theorem labelAppend_cfg (ch : Char7) (s : State) : (labelAppend ch s).cfg = s.cfg := rfl
@[simp] theorem labelAppend_fault (ch : Char7) (s : State) : (labelAppend ch s).fault = s.fault := rfl
@[simp] theorem labelAppend_faultCause (ch : Char7) (s : State) : (labelAppend ch s).faultCause = s.faultCause := rfl
@[simp] theorem labelAppend_ccCh (ch : Char7) (s : State) : (labelAppend ch s).ccCh = s.ccCh := rfl
@[simp] theorem labelAppend_vpsLbuf (ch : Char7) (s : State) : (labelAppend ch s).vpsLbuf = s.vpsLbuf.set s.vpsLpos.toNat ch s.vpsLpos.isLt := rfl
@[simp] theorem labelAppend_vpsLpos (ch : Char7) (s : State) : (labelAppend ch s).vpsLpos = s.vpsLpos + 1 := rfl
@[simp] theorem labelAppend_vpsLlen (ch : Char7) (s : State) : (labelAppend ch s).vpsLlen = (if s.vpsLlen < 16 then s.vpsLlen + 1 else 16) := rfl
@[simp] theorem labelAppend_vpsPrev (ch : Char7) (s : State) : (labelAppend ch s).vpsPrev = s.vpsPrev := rfl
@[simp] theorem labelAppend_vpsPlen (ch : Char7) (s : State) : (labelAppend ch s).vpsPlen = s.vpsPlen := rfl
@[simp] theorem labelAppend_inputs (ch : Char7) (s : State) : (labelAppend ch s).inputs = s.inputs := rfl
@[simp] theorem labelAppend_pc (ch : Char7) (s : State) : (labelAppend ch s).pc = s.pc := rfl
@[simp] theorem labelAppend_rsp (ch : Char7) (s : State) : (labelAppend ch s).rsp = s.rsp := rfl
@[simp] theorem labelAppend_rdata (ch : Char7) (s : State) : (labelAppend ch s).rdata = s.rdata := rfl

/-! ### clearSession -/

@[simp] theorem clearSession_cfg (s : State) : (clearSession s).cfg = s.cfg := rfl
@[simp] theorem clearSession_fault (s : State) : (clearSession s).fault = s.fault := rfl
@[simp] theorem clearSession_faultCause (s : State) : (clearSession s).faultCause = s.faultCause := rfl
@[simp] theorem clearSession_ccCh (s : State) : (clearSession s).ccCh = 0 := rfl
@[simp] theorem clearSession_vpsLbuf (s : State) : (clearSession s).vpsLbuf = Vector.replicate 16 0 := rfl
@[simp] theorem clearSession_vpsLpos (s : State) : (clearSession s).vpsLpos = 0 := rfl
@[simp] theorem clearSession_vpsLlen (s : State) : (clearSession s).vpsLlen = 0 := rfl
@[simp] theorem clearSession_vpsPrev (s : State) : (clearSession s).vpsPrev = Vector.replicate 16 0 := rfl
@[simp] theorem clearSession_vpsPlen (s : State) : (clearSession s).vpsPlen = 0 := rfl
@[simp] theorem clearSession_inputs (s : State) : (clearSession s).inputs = s.inputs := rfl
@[simp] theorem clearSession_pc (s : State) : (clearSession s).pc = s.pc := rfl
@[simp] theorem clearSession_rsp (s : State) : (clearSession s).rsp = s.rsp := rfl
@[simp] theorem clearSession_rdata (s : State) : (clearSession s).rdata = s.rdata := rfl

/-! ### clearFault -/

@[simp] theorem clearFault_cfg (s : State) : (clearFault s).cfg = s.cfg := rfl
@[simp] theorem clearFault_fault (s : State) : (clearFault s).fault = 0 := rfl
@[simp] theorem clearFault_faultCause (s : State) : (clearFault s).faultCause = 0 := rfl
@[simp] theorem clearFault_ccCh (s : State) : (clearFault s).ccCh = s.ccCh := rfl
@[simp] theorem clearFault_vpsLbuf (s : State) : (clearFault s).vpsLbuf = s.vpsLbuf := rfl
@[simp] theorem clearFault_vpsLpos (s : State) : (clearFault s).vpsLpos = s.vpsLpos := rfl
@[simp] theorem clearFault_vpsLlen (s : State) : (clearFault s).vpsLlen = s.vpsLlen := rfl
@[simp] theorem clearFault_vpsPrev (s : State) : (clearFault s).vpsPrev = s.vpsPrev := rfl
@[simp] theorem clearFault_vpsPlen (s : State) : (clearFault s).vpsPlen = s.vpsPlen := rfl
@[simp] theorem clearFault_inputs (s : State) : (clearFault s).inputs = s.inputs := rfl
@[simp] theorem clearFault_pc (s : State) : (clearFault s).pc = s.pc := rfl
@[simp] theorem clearFault_rsp (s : State) : (clearFault s).rsp = s.rsp := rfl
@[simp] theorem clearFault_rdata (s : State) : (clearFault s).rdata = s.rdata := rfl

/-! ### accept -/

@[simp] theorem accept_cfg (l : List Ports) (s : State) : (accept l s).cfg = s.cfg := rfl
@[simp] theorem accept_fault (l : List Ports) (s : State) : (accept l s).fault = s.fault := rfl
@[simp] theorem accept_faultCause (l : List Ports) (s : State) : (accept l s).faultCause = s.faultCause := rfl
@[simp] theorem accept_ccCh (l : List Ports) (s : State) : (accept l s).ccCh = s.ccCh := rfl
@[simp] theorem accept_vpsLbuf (l : List Ports) (s : State) : (accept l s).vpsLbuf = s.vpsLbuf := rfl
@[simp] theorem accept_vpsLpos (l : List Ports) (s : State) : (accept l s).vpsLpos = s.vpsLpos := rfl
@[simp] theorem accept_vpsLlen (l : List Ports) (s : State) : (accept l s).vpsLlen = s.vpsLlen := rfl
@[simp] theorem accept_vpsPrev (l : List Ports) (s : State) : (accept l s).vpsPrev = s.vpsPrev := rfl
@[simp] theorem accept_vpsPlen (l : List Ports) (s : State) : (accept l s).vpsPlen = s.vpsPlen := rfl
@[simp] theorem accept_inputs (l : List Ports) (s : State) : (accept l s).inputs = l := rfl
@[simp] theorem accept_pc (l : List Ports) (s : State) : (accept l s).pc = s.pc + 1 := rfl
@[simp] theorem accept_rsp (l : List Ports) (s : State) : (accept l s).rsp = s.rsp := rfl
@[simp] theorem accept_rdata (l : List Ports) (s : State) : (accept l s).rdata = s.rdata := rfl

/-! ### idleStep -/

@[simp] theorem idleStep_cfg (l : List Ports) (s : State) : (idleStep l s).cfg = s.cfg := rfl
@[simp] theorem idleStep_fault (l : List Ports) (s : State) : (idleStep l s).fault = s.fault := rfl
@[simp] theorem idleStep_faultCause (l : List Ports) (s : State) : (idleStep l s).faultCause = s.faultCause := rfl
@[simp] theorem idleStep_ccCh (l : List Ports) (s : State) : (idleStep l s).ccCh = s.ccCh := rfl
@[simp] theorem idleStep_vpsLbuf (l : List Ports) (s : State) : (idleStep l s).vpsLbuf = s.vpsLbuf := rfl
@[simp] theorem idleStep_vpsLpos (l : List Ports) (s : State) : (idleStep l s).vpsLpos = s.vpsLpos := rfl
@[simp] theorem idleStep_vpsLlen (l : List Ports) (s : State) : (idleStep l s).vpsLlen = s.vpsLlen := rfl
@[simp] theorem idleStep_vpsPrev (l : List Ports) (s : State) : (idleStep l s).vpsPrev = s.vpsPrev := rfl
@[simp] theorem idleStep_vpsPlen (l : List Ports) (s : State) : (idleStep l s).vpsPlen = s.vpsPlen := rfl
@[simp] theorem idleStep_inputs (l : List Ports) (s : State) : (idleStep l s).inputs = l := rfl
@[simp] theorem idleStep_pc (l : List Ports) (s : State) : (idleStep l s).pc = s.pc := rfl
@[simp] theorem idleStep_rsp (l : List Ports) (s : State) : (idleStep l s).rsp = none := rfl
@[simp] theorem idleStep_rdata (l : List Ports) (s : State) : (idleStep l s).rdata = none := rfl

end Sys2Proof.Machine
end

