-- ==== Sys2Proof/Laws/Ops.lean ====
section
/-!
SUPPORT. For each shared operation one lemma that says once everything it can do, for proofs to cite instead of
unfolding it; last, the shapes of a next state of `exec` and of `step`.
-/

namespace Sys2Proof.Machine

/-- The line check passes the service's outcome through, or raises LineRange. -/
theorem withLine_next {line : Line} {s t : State} {service : Out} (h : withLine line s service = .next t) :
    (line ≤ 1023#16 ∧ service = .next t) ∨ (¬ line ≤ 1023#16 ∧ t = raiseFault line .lineRange line s) := by
  unfold withLine at h
  split at h
  · rename_i hl
    exact .inl ⟨by simpa using hl, h⟩
  · rename_i hl
    cases h
    exact .inr ⟨by simpa using hl, rfl⟩

/-- The line check on a line in range. -/
theorem withLine_of_le {line : Line} (s : State) (service : Out) (h : line ≤ 1023#16) :
    withLine line s service = service := by
  simp [withLine, h]

/-- The line check on a line above 1023. -/
theorem withLine_of_gt {line : Line} (s : State) (service : Out) (h : ¬ line ≤ 1023#16) :
    withLine line s service = .next (raiseFault line .lineRange line s) := by
  simp [withLine, h]

/-- What a caption step can do: no error of its own; a record with the pair, and a channel by the kind. -/
def CaptionShape (line : Line) (s t : State) : Prop :=
  (∃ c1 c2 cmd, ccRecognised cmd = true ∧ t = ccCommand line c1 c2 cmd s) ∨
  (∃ c1 c2, t = ccUnrecognised line c1 c2 s) ∨
  (∃ c1 c2 cmd, (cmd = .null ∨ ∃ a b, cmd = .text a b) ∧ t = ccChannelless line c1 c2 cmd s)

/-- The case table of R129. -/
theorem runCcTable_next {line : Line} {c1 c2 : Char7} {s t : State} (h : runCcTable line c1 c2 s = .next t) :
    (∃ cmd, ccRecognised cmd = true ∧ t = ccCommand line c1 c2 cmd s) ∨ t = ccUnrecognised line c1 c2 s := by
  unfold runCcTable at h
  split at h <;> (repeat' split at h) <;>
    first
      | exact .inr (by cases h; rfl)
      | exact .inl ⟨_, by cases h; exact ⟨rfl, rfl⟩⟩

/-- The pair of a caption record is the pair interpreted. -/
theorem runCcPair_next {line : Line} {c1 c2 : Char7} {s t : State} (h : runCcPair line c1 c2 s = .next t) :
    (∃ cmd, ccRecognised cmd = true ∧ t = ccCommand line c1 c2 cmd s) ∨ t = ccUnrecognised line c1 c2 s ∨
      (∃ cmd, (cmd = .null ∨ ∃ a b, cmd = .text a b) ∧ t = ccChannelless line c1 c2 cmd s) := by
  unfold runCcPair at h
  split at h
  · cases h; exact .inr (.inr ⟨_, .inl rfl, rfl⟩)
  split at h
  · cases h; exact .inr (.inr ⟨_, .inr ⟨_, _, rfl⟩, rfl⟩)
  split at h
  · cases h; exact .inr (.inl rfl)
  split at h
  · unfold execCcPac at h
    split at h
    · cases h; exact .inr (.inl rfl)
    · cases h; exact .inl ⟨_, rfl, rfl⟩
  · rcases runCcTable_next h with h | h
    · exact .inl h
    · exact .inr (.inl h)

/-- Everything a caption request's interpreter can do. -/
theorem runCaption_next {line : Line} {b0 b1 : Byte} {s t : State} (h : runCaption line b0 b1 s = .next t) :
    CaptionShape line s t ∨ ∃ site, t = softError line .parityError site (b0 ++ b1) s := by
  unfold runCaption at h
  split at h
  · rcases runCcPair_next h with ⟨cmd, hc, rfl⟩ | rfl | ⟨cmd, hc, rfl⟩
    · exact .inl (.inl ⟨_, _, cmd, hc, rfl⟩)
    · exact .inl (.inr (.inl ⟨_, _, rfl⟩))
    · exact .inl (.inr (.inr ⟨_, _, cmd, hc, rfl⟩))
  · cases h
    exact .inr ⟨_, rfl⟩

/-! ### The label registers -/

@[simp] theorem labelStep_cfg (flag : Bool) (ch : Char7) (s : State) : (labelStep flag ch s).cfg = s.cfg := by
  cases flag <;> rfl

@[simp] theorem labelStep_fault (flag : Bool) (ch : Char7) (s : State) : (labelStep flag ch s).fault = s.fault := by
  cases flag <;> rfl

@[simp] theorem labelStep_faultCause (flag : Bool) (ch : Char7) (s : State) :
    (labelStep flag ch s).faultCause = s.faultCause := by
  cases flag <;> rfl

@[simp] theorem labelStep_ccCh (flag : Bool) (ch : Char7) (s : State) : (labelStep flag ch s).ccCh = s.ccCh := by
  cases flag <;> rfl

@[simp] theorem labelStep_inputs (flag : Bool) (ch : Char7) (s : State) :
    (labelStep flag ch s).inputs = s.inputs := by
  cases flag <;> rfl

@[simp] theorem labelStep_pc (flag : Bool) (ch : Char7) (s : State) : (labelStep flag ch s).pc = s.pc := by
  cases flag <;> rfl

@[simp] theorem labelStep_vpsPrev (flag : Bool) (ch : Char7) (s : State) :
    (labelStep flag ch s).vpsPrev = if flag then s.vpsLbuf else s.vpsPrev := by
  cases flag <;> rfl

@[simp] theorem labelStep_vpsPlen (flag : Bool) (ch : Char7) (s : State) :
    (labelStep flag ch s).vpsPlen = if flag then s.vpsLlen else s.vpsPlen := by
  cases flag <;> rfl

/-- The position a packet's character is written at. -/
def labelPos (flag : Bool) (s : State) : BitVec 4 := if flag then 0 else s.vpsLpos

/-- The length a packet's character is appended to. -/
def labelLen (flag : Bool) (s : State) : BitVec 5 := if flag then 0 else s.vpsLlen

@[simp] theorem labelStep_vpsLbuf (flag : Bool) (ch : Char7) (s : State) :
    (labelStep flag ch s).vpsLbuf = s.vpsLbuf.set (labelPos flag s).toNat ch (labelPos flag s).isLt := by
  cases flag <;> rfl

@[simp] theorem labelStep_vpsLpos (flag : Bool) (ch : Char7) (s : State) :
    (labelStep flag ch s).vpsLpos = labelPos flag s + 1 := by
  cases flag <;> rfl

@[simp] theorem labelStep_vpsLlen (flag : Bool) (ch : Char7) (s : State) :
    (labelStep flag ch s).vpsLlen = if labelLen flag s < 16 then labelLen flag s + 1 else 16 := by
  cases flag <;> rfl

/-! ### Teletext and IDL -/

/-- A record of a step that reads and writes no register: neither a caption nor a VPS record. -/
def isPlain : Record → Bool
  | .noOp _ => true
  | .cc _ _ _ _ _ => false
  | .vps _ => false
  | .wss _ => true
  | .wssCpr _ => true
  | .ttx _ _ _ _ => true
  | .ttx830 _ _ => true
  | .idl _ _ _ _ _ _ => true
  | .error _ _ _ _ => true

/-- An outcome that only emits such a record. -/
def EmitsOnly (s t : State) : Prop := ∃ r, isPlain r = true ∧ t = emit r s

theorem runDatavideo_next {line : Line} {a : BitVec 8} {p : Payload} {s t : State}
    (h : runDatavideo line a p s = .next t) : EmitsOnly s t := by
  unfold runDatavideo at h
  split at h <;> cases h <;> exact ⟨_, rfl, rfl⟩

theorem execIdlSpa_next {line : Line} {a : BitVec 8} {ft ial : BitVec 4} {p : Payload} {s t : State}
    (h : execIdlSpa line a ft ial p s = .next t) : EmitsOnly s t := by
  unfold execIdlSpa at h
  split at h <;> cases h <;> exact ⟨_, rfl, rfl⟩

theorem execIdlFormatA_next {line : Line} {a : BitVec 8} {ft : BitVec 4} {p : Payload} {s t : State}
    (h : execIdlFormatA line a ft p s = .next t) : EmitsOnly s t := by
  unfold execIdlFormatA at h
  split at h
  · cases h; exact ⟨_, rfl, rfl⟩
  · split at h
    · cases h; exact ⟨_, rfl, rfl⟩
    · exact execIdlSpa_next h

theorem execIdlFormatB_next {line : Line} {a : BitVec 8} {ft : BitVec 4} {p : Payload} {s t : State}
    (h : execIdlFormatB line a ft p s = .next t) : EmitsOnly s t := by
  unfold execIdlFormatB at h
  split at h <;> cases h <;> exact ⟨_, rfl, rfl⟩

theorem runFormatted_next {line : Line} {a : BitVec 8} {p : Payload} {s t : State}
    (h : runFormatted line a p s = .next t) : EmitsOnly s t := by
  unfold runFormatted at h
  split at h
  · cases h; exact ⟨_, rfl, rfl⟩
  · split at h
    · exact execIdlFormatA_next h
    · split at h
      · exact execIdlFormatB_next h
      · cases h; exact ⟨_, rfl, rfl⟩

theorem runIdl_next {line : Line} {a : BitVec 8} {p : Payload} {s t : State} (h : runIdl line a p s = .next t) :
    EmitsOnly s t := by
  simp only [runIdl] at h
  split_ifs at h
  all_goals first
    | exact runDatavideo_next h
    | exact runFormatted_next h
    | (cases h; exact ⟨_, rfl, rfl⟩)

theorem runTeletext_next {line : Line} {p : Payload} {s t : State} (h : runTeletext line p s = .next t) :
    EmitsOnly s t := by
  unfold runTeletext at h
  split at h
  · cases h; exact ⟨_, rfl, rfl⟩
  · repeat' split at h
    · cases h; exact ⟨_, rfl, rfl⟩
    · exact runIdl_next h
    · cases h; exact ⟨_, rfl, rfl⟩

/-! ### Every instruction, every step -/

/-- The effects an instruction can have on the state: which instruction, and the next state. -/
inductive Effect (s : State) : Instr → State → Prop
  /-- A record, no register. -/
  | record (i : Instr) (r : Record) (plain : isPlain r = true) : Effect s i (emit r s)
  /-- A hard fault. -/
  | hardFault (i : Instr) (line : Line) (cause : Cause) (aux : BitVec 16)
      (hard : cause = .sizeMismatch ∨ cause = .lineRange) (may : writesFault i) (not : i ≠ .porst) :
      Effect s i (raiseFault line cause aux s)
  /-- A recognised caption command. -/
  | command (i : Instr) (line : Line) (c1 c2 : Char7) (cmd : CcKind) (known : ccRecognised cmd = true)
      (may : writesChannel i) : Effect s i (ccCommand line c1 c2 cmd s)
  /-- An Unknown caption pair. -/
  | unknown (i : Instr) (line : Line) (c1 c2 : Char7) : Effect s i (ccUnrecognised line c1 c2 s)
  /-- A Null or Text pair. -/
  | channelless (i : Instr) (line : Line) (c1 c2 : Char7) (cmd : CcKind)
      (kind : cmd = .null ∨ ∃ a b, cmd = .text a b) : Effect s i (ccChannelless line c1 c2 cmd s)
  /-- A VPS packet. -/
  | vps (line : Line) (p : VpsPayload) :
      Effect s (.decVps line p) (emit (.vps (vpsRecord line p (prevLabel (labelStep (vpsFlag p) (vpsChar p) s))))
        (labelStep (vpsFlag p) (vpsChar p) s))
  /-- Session reset. -/
  | sessionReset : Effect s .srst (silent (clearSession s))
  /-- Power-on reset. -/
  | powerReset : Effect s .porst (silent (clearFault (clearSession s)))
  /-- A readout. -/
  | readOut (addr : BitVec 8) : Effect s (.rd addr) (answer (readout s addr) s)

theorem EmitsOnly.effect {i : Instr} {s t : State} (h : EmitsOnly s t) : Effect s i t := by
  obtain ⟨r, h, rfl⟩ := h
  exact .record i r h

theorem CaptionShape.effect {i : Instr} {line : Line} {s t : State} (h : CaptionShape line s t)
    (may : writesChannel i) : Effect s i t := by
  rcases h with ⟨c1, c2, cmd, hc, rfl⟩ | ⟨c1, c2, rfl⟩ | ⟨c1, c2, cmd, hc, rfl⟩
  · exact .command _ _ _ _ _ hc may
  · exact .unknown _ _ _ _
  · exact .channelless _ _ _ _ _ hc

theorem runCcPair_effect {i : Instr} {line : Line} {c1 c2 : Char7} {s t : State}
    (h : runCcPair line c1 c2 s = .next t) (may : writesChannel i) : Effect s i t := by
  rcases runCcPair_next h with ⟨cmd, hc, rfl⟩ | rfl | ⟨cmd, hc, rfl⟩
  · exact .command _ _ _ _ _ hc may
  · exact .unknown _ _ _ _
  · exact .channelless _ _ _ _ _ hc

theorem runCaption_effect {i : Instr} {line : Line} {b0 b1 : Byte} {s t : State}
    (h : runCaption line b0 b1 s = .next t) (may : writesChannel i) : Effect s i t := by
  rcases runCaption_next h with h | ⟨site, rfl⟩
  · exact h.effect may
  · exact .record _ _ rfl

/-- A decode operation, from the effects of its service. -/
theorem withLine_effect {i : Instr} {line : Line} {s t : State} {service : Out} {p : Payload} {v : VpsPayload}
    {b0 b1 b2 : Byte} (mem : i ∈ services line p v b0 b1 b2) (h : withLine line s service = .next t)
    (eff : service = .next t → Effect s i t) : Effect s i t := by
  rcases withLine_next h with ⟨-, h⟩ | ⟨-, rfl⟩
  · exact eff h
  · refine .hardFault _ _ _ _ (.inr rfl) (.inr ⟨line, .inr ⟨p, v, b0, b1, b2, mem⟩⟩) ?_
    rintro rfl
    simp [services] at mem

/-- Every next state of an instruction is one of the effects. -/
theorem exec_effect {i : Instr} {s t : State} (h : exec i s = .next t) : Effect s i t := by
  cases i <;> simp only [exec] at h
  case decTtx line p =>
    exact withLine_effect (p := p) (v := default) (b0 := 0) (b1 := 0) (b2 := 0) (by simp [services]) h
      fun h => (runTeletext_next h).effect
  case decCc525 line b0 b1 =>
    exact withLine_effect (p := default) (v := default) (b0 := b0) (b1 := b1) (b2 := 0) (by simp [services]) h
      fun h => runCaption_effect h (.inr (.inr ⟨line, .inl ⟨b0, b1, by simp⟩⟩))
  case decCc625 line b0 b1 =>
    exact withLine_effect (p := default) (v := default) (b0 := b0) (b1 := b1) (b2 := 0) (by simp [services]) h
      fun h => runCaption_effect h (.inr (.inr ⟨line, .inl ⟨b0, b1, by simp⟩⟩))
  case decVps line v =>
    exact withLine_effect (p := default) (v := v) (b0 := 0) (b1 := 0) (b2 := 0) (by simp [services]) h
      fun h => by cases h; exact .vps _ _
  case decWss625 line b0 b1 =>
    exact withLine_effect (p := default) (v := default) (b0 := b0) (b1 := b1) (b2 := 0) (by simp [services]) h
      fun h => by cases h; exact .record _ _ rfl
  case decCpr1204 line b0 b1 b2 =>
    exact withLine_effect (p := default) (v := default) (b0 := b0) (b1 := b1) (b2 := b2) (by simp [services]) h
      fun h => by cases h; exact .record _ _ rfl
  case reqSizeMismatch line tag len =>
    cases h
    exact .hardFault _ _ _ _ (.inl rfl) (.inr ⟨line, .inl ⟨tag, len, rfl⟩⟩) (by simp)
  case srst => cases h; exact .sessionReset
  case rd => cases h; exact .readOut _
  case porst => cases h; exact .powerReset
  case ccParityOk line b0 b1 =>
    exact runCcPair_effect h (.inr (.inr ⟨line, .inl ⟨b0, b1, by simp⟩⟩))
  case ccPac line c1 c2 =>
    unfold execCcPac at h
    split at h
    · cases h; exact .unknown _ _ _ _
    · cases h; exact .command _ _ _ _ _ rfl (.inr (.inr ⟨line, .inr ⟨c1, c2, by simp⟩⟩))
  case ttxIdl => exact (runIdl_next h).effect
  case idlDatavideo5or13 => exact (runDatavideo_next h).effect
  case idlDatavideo6or14 => exact (runDatavideo_next h).effect
  case idlFormatted8to11 => exact (runFormatted_next h).effect
  case idlFormatted15 => exact (runFormatted_next h).effect
  case idlFormatA => exact (execIdlFormatA_next h).effect
  case idlFormatB => exact (execIdlFormatB_next h).effect
  case idlSpa => exact (execIdlSpa_next h).effect
  all_goals
    first
      | (cases h; exact .record _ _ rfl)
      | (cases h; exact .unknown _ _ _ _)
      | (rename_i line c1 c2; cases h
         exact .command _ _ _ _ _ rfl (.inr (.inr ⟨line, .inr ⟨c1, c2, by simp⟩⟩)))
      | (cases h; exact .channelless _ _ _ _ _ (.inl rfl))
      | (cases h; exact .channelless _ _ _ _ _ (.inr ⟨_, _, rfl⟩))

/-- Everything a step can do: idle, or an instruction on the state after its operation is accepted. -/
theorem step_next {s t : State} (h : step s = .next t) :
    (∃ rest, t = idleStep rest s) ∨
      ∃ w i left, decode s.cfg w = .ok i ∧ exec i (accept left s) = .next t := by
  unfold step at h
  split at h
  · rename_i u hf
    cases h
    unfold fetch at hf
    split at hf
    · cases hf; exact .inl ⟨_, rfl⟩
    · split at hf
      · cases hf; exact .inl ⟨_, rfl⟩
      · cases hf
  · rename_i w u hf
    split at h
    · rename_i i hd
      unfold fetch at hf
      split at hf
      · cases hf
      · split at hf
        · cases hf
        · cases hf
          exact .inr ⟨_, _, _, hd, h⟩
    · cases h

end Sys2Proof.Machine
end

