-- ==== Sys2Proof/Laws/PerInstr.lean ====
section
/-!
SUPPORT. The family DecodeEncode: decoding the word of a well-formed instruction gives it back, one lemma per
constructor.
-/

namespace Sys2Proof.Laws.DecodeEncode

open Sys2Proof.Machine

/-- Under any configuration, decoding the encoding of a well-formed instruction gives the instruction. -/
def Statement (i : Instr) : Prop :=
  ∀ cfg : Config, WellFormed cfg i = true → decode cfg (encode i) = .ok i

/-- The tags a size mismatch can have. -/
theorem tag_of_width : ∀ tag : BitVec 4, (tagWidth tag).isSome = true →
    tag = 1 ∨ tag = 2 ∨ tag = 3 ∨ tag = 4 ∨ tag = 5 ∨ tag = 6 := by
  decide

/-- What the reserved tags 8..15 are not. -/
theorem highTag : ∀ t : BitVec 3,
    (1#1 ++ t : BitVec 4) ∉ [(0 : BitVec 4), 1, 2, 3, 4, 5, 6, 7] ∧ (8 : BitVec 4) ≤ 1#1 ++ t ∧ (1#1 ++ t : BitVec 4).setWidth 3 = t := by
  decide

/-- The two format-type rows with bit 0 set. -/
theorem oddFormat : ∀ ft : BitVec 4,
    (ft.extractLsb' 0 2 = 1 → ft.getLsbD 0 = true) ∧
    (ft.extractLsb' 0 2 = 3 → ft.getLsbD 0 = true ∧ ft.extractLsb' 0 2 ≠ 1) := by
  decide

/-- Packets below 30 are neither 8/30 nor IDL. -/
theorem lowPacket : ∀ a : BitVec 8, ttxPacket a < 30#5 → a ≠ 0xF0 ∧ ¬ 30 ≤ ttxPacket a := by
  decide

/-- The rows of the case table of 41_caption.md R129: a control pair whose second character is 0x20..0x3F. -/
theorem decodeCc_table (cfg : Config) (line : Line) (c1 c2 : Char7) (hc : 1#7 ≤ c1 ∧ c1 ≤ 0x1F#7)
    (h2 : 0x20#7 ≤ c2 ∧ c2 ≤ 0x3F#7) :
    decodeCc cfg line (ccWord c1 c2) = .ok
      (if ccA7 c1 = 0 ∧ 0x20 ≤ c2 ∧ c2 ≤ 0x2F then .ccBackground line c1 c2
       else if ccA7 c1 = 1 ∧ 0x20 ≤ c2 ∧ c2 ≤ 0x2F then .ccMidrow line c1 c2
       else if ccA7 c1 = 1 ∧ 0x30 ≤ c2 ∧ c2 ≤ 0x3F then .ccSpecial line c1 c2
       else if (ccA7 c1 = 2 ∨ ccA7 c1 = 3) ∧ 0x20 ≤ c2 ∧ c2 ≤ 0x3F then .ccExtended line c1 c2
       else if (ccA7 c1 = 4 ∨ ccA7 c1 = 5) ∧ 0x20 ≤ c2 ∧ c2 ≤ 0x2F then .ccControl line c1 c2
       else if ccA7 c1 = 6 ∧ 0x20 ≤ c2 ∧ c2 ≤ 0x3F then .ccReservedA76 line c1 c2
       else if ccA7 c1 = 7 ∧ c2 = 0x21 then .ccTo1 line c1 c2
       else if ccA7 c1 = 7 ∧ c2 = 0x22 then .ccTo2 line c1 c2
       else if ccA7 c1 = 7 ∧ c2 = 0x23 then .ccTo3 line c1 c2
       else if ccA7 c1 = 7 ∧ c2 = 0x2D then .ccBt line c1 c2
       else if ccA7 c1 = 7 ∧ c2 = 0x2E then .ccFa line c1 c2
       else if ccA7 c1 = 7 ∧ c2 = 0x2F then .ccFau line c1 c2
       else .ccUnknown line c1 c2) := by
  rw [decodeCc_eq, if_neg (by bv_omega), if_neg (by bv_omega), if_neg (by bv_omega), if_neg (by bv_omega),
    if_neg (by bv_omega)]

theorem nop (line : _) : Statement (.nop line) := by
  intro cfg h
  simp [encode, mkRequest, decode, decodeReq_eq]

theorem decTtx (line : _) (p : _) : Statement (.decTtx line p) := by
  intro cfg h
  simp [encode, decode, decodeReq_eq]

theorem decCc525 (line : _) (b0 : _) (b1 : _) : Statement (.decCc525 line b0 b1) := by
  intro cfg h
  simp [encode, mkRequest, decode, decodeReq_eq, List.getD]

theorem decCc625 (line : _) (b0 : _) (b1 : _) : Statement (.decCc625 line b0 b1) := by
  intro cfg h
  simp [encode, mkRequest, decode, decodeReq_eq, List.getD]

theorem decVps (line : _) (p : _) : Statement (.decVps line p) := by
  intro cfg h
  simp [encode, mkRequest, decode, decodeReq_eq, vpsBytes_padPayload]

theorem decWss625 (line : _) (b0 : _) (b1 : _) : Statement (.decWss625 line b0 b1) := by
  intro cfg h
  simp [encode, mkRequest, decode, decodeReq_eq, List.getD]

theorem decCpr1204 (line : _) (b0 : _) (b1 : _) (b2 : _) : Statement (.decCpr1204 line b0 b1 b2) := by
  intro cfg h
  simp [encode, mkRequest, decode, decodeReq_eq, List.getD]

theorem nopRsv7 (line : _) : Statement (.nopRsv7 line) := by
  intro cfg h
  simp [encode, mkRequest, decode, decodeReq_eq]

theorem nopRsv8to15 (line : _) (t : _) : Statement (.nopRsv8to15 line t) := by
  intro cfg h
  obtain ⟨f, g, e⟩ := highTag t
  simp only [List.mem_cons, List.not_mem_nil, or_false, not_or] at f
  obtain ⟨f0, f1, f2, f3, f4, f5, f6, f7⟩ := f
  show Except.ok (decodeReq ⟨reqWord line 0 (1#1 ++ t), padPayload []⟩) = _
  rw [decodeReq_eq]
  simp only [reqTag_reqWord, reqLine_reqWord]
  rw [if_neg f0, if_neg (fun h => f1 h.1), if_neg (fun h => f2 h.1), if_neg (fun h => f3 h.1), if_neg (fun h => f4 h.1),
    if_neg (fun h => f5 h.1), if_neg (fun h => f6 h.1), if_neg f7, if_pos g, e]

theorem reqSizeMismatch (line : _) (tag : _) (len : _) : Statement (.reqSizeMismatch line tag len) := by
  intro cfg h
  simp only [WellFormed, Bool.and_eq_true, bne_iff_ne] at h
  show Except.ok (decodeReq ⟨reqWord line len tag, padPayload []⟩) = _
  rw [decodeReq_eq]
  simp only [reqTag_reqWord, reqLine_reqWord, reqLen_reqWord]
  congr 1
  obtain ⟨hw, hl⟩ := h
  rcases tag_of_width tag hw with rfl | rfl | rfl | rfl | rfl | rfl <;>
    simp <;> exact fun e => hl (congrArg some e.symm)

theorem srst : Statement (.srst) := by
  intro cfg h
  rfl

theorem rd (raddr : _) : Statement (.rd raddr) := by
  intro cfg h
  rfl

theorem porst : Statement (.porst) := by
  intro cfg h
  rfl

theorem ccParityError (line : _) (b0 : _) (b1 : _) : Statement (.ccParityError line b0 b1) := by
  intro cfg h
  simp only [WellFormed, Bool.and_eq_true] at h
  simp only [encode, decode, decodeCcraw, h.2, if_true]

theorem ccParityOk (line : _) (b0 : _) (b1 : _) : Statement (.ccParityOk line b0 b1) := by
  intro cfg h
  simp only [WellFormed, Bool.and_eq_true] at h
  simp [encode, decode, decodeCcraw, Option.isNone_iff_eq_none, Option.isSome_iff_ne_none.mp h.1.2,
    Option.isSome_iff_ne_none.mp h.2]

theorem ccNull (line : _) (c1 : _) (c2 : _) : Statement (.ccNull line c1 c2) := by
  intro cfg h
  simp only [WellFormed, Bool.and_eq_true, beq_iff_eq] at h
  show decodeCc cfg line (ccWord c1 c2) = _
  rw [decodeCc_eq, if_pos (show c1 = 0 from h.2)]

theorem ccText (line : _) (c1 : _) (c2 : _) : Statement (.ccText line c1 c2) := by
  intro cfg h
  simp only [WellFormed, Bool.and_eq_true, decide_eq_true_eq] at h
  have h2 := h.2
  clear h
  show decodeCc cfg line (ccWord c1 c2) = _
  rw [decodeCc_eq, if_neg (by bv_omega), if_pos (by bv_omega)]

theorem ccInvalidC2 (line : _) (c1 : _) (c2 : _) : Statement (.ccInvalidC2 line c1 c2) := by
  intro cfg h
  simp only [WellFormed, isControlC1, Bool.and_eq_true, decide_eq_true_eq] at h
  obtain ⟨⟨-, hc⟩, h2⟩ := h
  show decodeCc cfg line (ccWord c1 c2) = _
  rw [decodeCc_eq, if_neg (by bv_omega), if_neg (by bv_omega), if_pos (by bv_omega)]

theorem ccPacUnassigned (line : _) (c1 : _) (c2 : _) : Statement (.ccPacUnassigned line c1 c2) := by
  intro cfg h
  simp only [WellFormed, isControlC1, Bool.and_eq_true, decide_eq_true_eq, beq_iff_eq] at h
  obtain ⟨⟨⟨-, hc⟩, h2⟩, hr⟩ := h
  show decodeCc cfg line (ccWord c1 c2) = _
  rw [decodeCc_eq, if_neg (by bv_omega), if_neg (by bv_omega), if_neg (by bv_omega), if_pos (show 0x40 ≤ c2 ∧ pacRow cfg c1 c2 = 0 from ⟨h2, hr⟩)]

theorem ccPac (line : _) (c1 : _) (c2 : _) : Statement (.ccPac line c1 c2) := by
  intro cfg h
  simp only [WellFormed, isControlC1, Bool.and_eq_true, decide_eq_true_eq, bne_iff_ne] at h
  obtain ⟨⟨⟨-, hc⟩, h2⟩, hr⟩ := h
  show decodeCc cfg line (ccWord c1 c2) = _
  rw [decodeCc_eq, if_neg (by bv_omega), if_neg (by bv_omega), if_neg (by bv_omega), if_neg (fun h => hr h.2),
    if_pos (show 0x40 ≤ c2 from h2)]

theorem ccBackground (line : _) (c1 : _) (c2 : _) : Statement (.ccBackground line c1 c2) := by
  intro cfg h
  simp only [WellFormed, isControlC1, c2Within, Bool.and_eq_true, decide_eq_true_eq, beq_iff_eq] at h
  obtain ⟨⟨⟨-, hc⟩, ha⟩, h2⟩ := h
  show decodeCc cfg line (ccWord c1 c2) = _
  rw [decodeCc_table cfg line c1 c2 hc (by bv_omega), if_pos (by bv_omega)]

theorem ccMidrow (line : _) (c1 : _) (c2 : _) : Statement (.ccMidrow line c1 c2) := by
  intro cfg h
  simp only [WellFormed, isControlC1, c2Within, Bool.and_eq_true, decide_eq_true_eq, beq_iff_eq] at h
  obtain ⟨⟨⟨-, hc⟩, ha⟩, h2⟩ := h
  show decodeCc cfg line (ccWord c1 c2) = _
  rw [decodeCc_table cfg line c1 c2 hc (by bv_omega), if_neg (by bv_omega), if_pos (by bv_omega)]

theorem ccSpecial (line : _) (c1 : _) (c2 : _) : Statement (.ccSpecial line c1 c2) := by
  intro cfg h
  simp only [WellFormed, isControlC1, c2Within, Bool.and_eq_true, decide_eq_true_eq, beq_iff_eq] at h
  obtain ⟨⟨⟨-, hc⟩, ha⟩, h2⟩ := h
  show decodeCc cfg line (ccWord c1 c2) = _
  rw [decodeCc_table cfg line c1 c2 hc (by bv_omega), if_neg (by bv_omega), if_neg (by bv_omega),
    if_pos (by bv_omega)]

theorem ccExtended (line : _) (c1 : _) (c2 : _) : Statement (.ccExtended line c1 c2) := by
  intro cfg h
  simp only [WellFormed, isControlC1, c2Within, Bool.and_eq_true, Bool.or_eq_true, decide_eq_true_eq, beq_iff_eq] at h
  obtain ⟨⟨⟨-, hc⟩, ha⟩, h2⟩ := h
  show decodeCc cfg line (ccWord c1 c2) = _
  rw [decodeCc_table cfg line c1 c2 hc (by bv_omega), if_neg (by bv_omega), if_neg (by bv_omega),
    if_neg (by bv_omega), if_pos (by bv_omega)]

theorem ccControl (line : _) (c1 : _) (c2 : _) : Statement (.ccControl line c1 c2) := by
  intro cfg h
  simp only [WellFormed, isControlC1, c2Within, Bool.and_eq_true, Bool.or_eq_true, decide_eq_true_eq, beq_iff_eq] at h
  obtain ⟨⟨⟨-, hc⟩, ha⟩, h2⟩ := h
  show decodeCc cfg line (ccWord c1 c2) = _
  rw [decodeCc_table cfg line c1 c2 hc (by bv_omega), if_neg (by bv_omega), if_neg (by bv_omega),
    if_neg (by bv_omega), if_neg (by bv_omega), if_pos (by bv_omega)]

theorem ccReservedA76 (line : _) (c1 : _) (c2 : _) : Statement (.ccReservedA76 line c1 c2) := by
  intro cfg h
  simp only [WellFormed, isControlC1, c2Within, Bool.and_eq_true, decide_eq_true_eq, beq_iff_eq] at h
  obtain ⟨⟨⟨-, hc⟩, ha⟩, h2⟩ := h
  show decodeCc cfg line (ccWord c1 c2) = _
  rw [decodeCc_table cfg line c1 c2 hc (by bv_omega), if_neg (by bv_omega), if_neg (by bv_omega),
    if_neg (by bv_omega), if_neg (by bv_omega), if_neg (by bv_omega), if_pos (by bv_omega)]

theorem ccTo1 (line : _) (c1 : _) (c2 : _) : Statement (.ccTo1 line c1 c2) := by
  intro cfg h
  simp only [WellFormed, isControlC1, Bool.and_eq_true, decide_eq_true_eq, beq_iff_eq] at h
  obtain ⟨⟨⟨-, hc⟩, ha⟩, h2⟩ := h
  show decodeCc cfg line (ccWord c1 c2) = _
  rw [decodeCc_table cfg line c1 c2 hc (by bv_omega), if_neg (by bv_omega), if_neg (by bv_omega),
    if_neg (by bv_omega), if_neg (by bv_omega), if_neg (by bv_omega), if_neg (by bv_omega), if_pos (by bv_omega)]

theorem ccTo2 (line : _) (c1 : _) (c2 : _) : Statement (.ccTo2 line c1 c2) := by
  intro cfg h
  simp only [WellFormed, isControlC1, Bool.and_eq_true, decide_eq_true_eq, beq_iff_eq] at h
  obtain ⟨⟨⟨-, hc⟩, ha⟩, h2⟩ := h
  show decodeCc cfg line (ccWord c1 c2) = _
  rw [decodeCc_table cfg line c1 c2 hc (by bv_omega), if_neg (by bv_omega), if_neg (by bv_omega),
    if_neg (by bv_omega), if_neg (by bv_omega), if_neg (by bv_omega), if_neg (by bv_omega), if_neg (by bv_omega),
    if_pos (by bv_omega)]

theorem ccTo3 (line : _) (c1 : _) (c2 : _) : Statement (.ccTo3 line c1 c2) := by
  intro cfg h
  simp only [WellFormed, isControlC1, Bool.and_eq_true, decide_eq_true_eq, beq_iff_eq] at h
  obtain ⟨⟨⟨-, hc⟩, ha⟩, h2⟩ := h
  show decodeCc cfg line (ccWord c1 c2) = _
  rw [decodeCc_table cfg line c1 c2 hc (by bv_omega), if_neg (by bv_omega), if_neg (by bv_omega),
    if_neg (by bv_omega), if_neg (by bv_omega), if_neg (by bv_omega), if_neg (by bv_omega), if_neg (by bv_omega),
    if_neg (by bv_omega), if_pos (by bv_omega)]

theorem ccBt (line : _) (c1 : _) (c2 : _) : Statement (.ccBt line c1 c2) := by
  intro cfg h
  simp only [WellFormed, isControlC1, Bool.and_eq_true, decide_eq_true_eq, beq_iff_eq] at h
  obtain ⟨⟨⟨-, hc⟩, ha⟩, h2⟩ := h
  show decodeCc cfg line (ccWord c1 c2) = _
  rw [decodeCc_table cfg line c1 c2 hc (by bv_omega), if_neg (by bv_omega), if_neg (by bv_omega),
    if_neg (by bv_omega), if_neg (by bv_omega), if_neg (by bv_omega), if_neg (by bv_omega), if_neg (by bv_omega),
    if_neg (by bv_omega), if_neg (by bv_omega), if_pos (by bv_omega)]

theorem ccFa (line : _) (c1 : _) (c2 : _) : Statement (.ccFa line c1 c2) := by
  intro cfg h
  simp only [WellFormed, isControlC1, Bool.and_eq_true, decide_eq_true_eq, beq_iff_eq] at h
  obtain ⟨⟨⟨-, hc⟩, ha⟩, h2⟩ := h
  show decodeCc cfg line (ccWord c1 c2) = _
  rw [decodeCc_table cfg line c1 c2 hc (by bv_omega), if_neg (by bv_omega), if_neg (by bv_omega),
    if_neg (by bv_omega), if_neg (by bv_omega), if_neg (by bv_omega), if_neg (by bv_omega), if_neg (by bv_omega),
    if_neg (by bv_omega), if_neg (by bv_omega), if_neg (by bv_omega), if_pos (by bv_omega)]

theorem ccFau (line : _) (c1 : _) (c2 : _) : Statement (.ccFau line c1 c2) := by
  intro cfg h
  simp only [WellFormed, isControlC1, Bool.and_eq_true, decide_eq_true_eq, beq_iff_eq] at h
  obtain ⟨⟨⟨-, hc⟩, ha⟩, h2⟩ := h
  show decodeCc cfg line (ccWord c1 c2) = _
  rw [decodeCc_table cfg line c1 c2 hc (by bv_omega), if_neg (by bv_omega), if_neg (by bv_omega),
    if_neg (by bv_omega), if_neg (by bv_omega), if_neg (by bv_omega), if_neg (by bv_omega), if_neg (by bv_omega),
    if_neg (by bv_omega), if_neg (by bv_omega), if_neg (by bv_omega), if_neg (by bv_omega), if_pos (by bv_omega)]

theorem ccUnknown (line : _) (c1 : _) (c2 : _) : Statement (.ccUnknown line c1 c2) := by
  intro cfg h
  simp only [WellFormed, isControlC1, c2Within, Bool.and_eq_true, Bool.or_eq_true, decide_eq_true_eq, beq_iff_eq,
    Bool.not_eq_true', List.contains_eq_mem, List.mem_cons, List.not_mem_nil, or_false, decide_eq_false_iff_not,
    not_or] at h
  obtain ⟨⟨-, hc⟩, h2⟩ := h
  show decodeCc cfg line (ccWord c1 c2) = _
  rw [decodeCc_table cfg line c1 c2 hc (by rcases h2 with (h | h) | h <;> bv_omega)]
  rcases h2 with (h | h) | h
  · rw [if_neg (by bv_omega), if_neg (by bv_omega), if_neg (by bv_omega), if_neg (by bv_omega), if_neg (by bv_omega),
      if_neg (by bv_omega), if_neg (by bv_omega), if_neg (by bv_omega), if_neg (by bv_omega), if_neg (by bv_omega),
      if_neg (by bv_omega), if_neg (by bv_omega)]
  · rw [if_neg (by bv_omega), if_neg (by bv_omega), if_neg (by bv_omega), if_neg (by bv_omega), if_neg (by bv_omega),
      if_neg (by bv_omega), if_neg (by bv_omega), if_neg (by bv_omega), if_neg (by bv_omega), if_neg (by bv_omega),
      if_neg (by bv_omega), if_neg (by bv_omega)]
  · rw [if_neg (by bv_omega), if_neg (by bv_omega), if_neg (by bv_omega), if_neg (by bv_omega), if_neg (by bv_omega),
      if_neg (by bv_omega), if_neg (by bv_omega), if_neg (by bv_omega), if_neg (by bv_omega), if_neg (by bv_omega),
      if_neg (by bv_omega), if_neg (by bv_omega)]

theorem ttxHammingError (line : _) (b0 : _) (b1 : _) : Statement (.ttxHammingError line b0 b1) := by
  intro cfg h
  simp_all [WellFormed, encode, decode, decodeTtxaddr_eq]

theorem ttx830 (line : _) (p : _) : Statement (.ttx830 line p) := by
  intro cfg h
  simp_all [WellFormed, encode, decode, decodeTtxaddr_eq]

theorem ttxIdl (line : _) (a : _) (p : _) : Statement (.ttxIdl line a p) := by
  intro cfg h
  simp_all [WellFormed, encode, decode, decodeTtxaddr_eq]

theorem ttx (line : _) (a : _) (p : _) : Statement (.ttx line a p) := by
  intro cfg h
  simp only [WellFormed, Bool.and_eq_true, decide_eq_true_eq, beq_iff_eq] at h
  obtain ⟨h0, h1⟩ := lowPacket a h.2
  show Except.ok (decodeTtxaddr cfg line p) = _
  rw [decodeTtxaddr_eq, h.1.2]
  simp only [if_neg h0, if_neg h1]

theorem idlCh0 (line : _) (a : _) (p : _) : Statement (.idlCh0 line a p) := by
  intro cfg h
  simp only [WellFormed, idlContext, Bool.and_eq_true, List.contains_eq_mem, List.mem_cons, List.not_mem_nil, or_false,
    decide_eq_true_eq] at h
  show Except.ok (decodeIdlch cfg line a p) = _
  rw [decodeIdlch_eq]
  congr 1
  split_ifs <;> first | rfl | (exfalso; bv_omega)

theorem idlDatavideo5or13 (line : _) (a : _) (p : _) : Statement (.idlDatavideo5or13 line a p) := by
  intro cfg h
  simp only [WellFormed, idlContext, Bool.and_eq_true, List.contains_eq_mem, List.mem_cons, List.not_mem_nil, or_false,
    decide_eq_true_eq] at h
  show Except.ok (decodeIdlch cfg line a p) = _
  rw [decodeIdlch_eq]
  congr 1
  split_ifs <;> first | rfl | (exfalso; bv_omega)

theorem idlDatavideo6or14 (line : _) (a : _) (p : _) : Statement (.idlDatavideo6or14 line a p) := by
  intro cfg h
  simp only [WellFormed, idlContext, Bool.and_eq_true, List.contains_eq_mem, List.mem_cons, List.not_mem_nil, or_false,
    decide_eq_true_eq] at h
  show Except.ok (decodeIdlch cfg line a p) = _
  rw [decodeIdlch_eq]
  congr 1
  split_ifs <;> first | rfl | (exfalso; bv_omega)

theorem idlFormatted8to11 (line : _) (a : _) (p : _) : Statement (.idlFormatted8to11 line a p) := by
  intro cfg h
  simp only [WellFormed, idlContext, Bool.and_eq_true, List.contains_eq_mem, List.mem_cons, List.not_mem_nil, or_false,
    decide_eq_true_eq] at h
  show Except.ok (decodeIdlch cfg line a p) = _
  rw [decodeIdlch_eq]
  congr 1
  split_ifs <;> first | rfl | (exfalso; bv_omega)

theorem idlFormatted15 (line : _) (a : _) (p : _) : Statement (.idlFormatted15 line a p) := by
  intro cfg h
  simp only [WellFormed, idlContext, Bool.and_eq_true, List.contains_eq_mem, List.mem_cons, List.not_mem_nil, or_false,
    decide_eq_true_eq] at h
  show Except.ok (decodeIdlch cfg line a p) = _
  rw [decodeIdlch_eq]
  congr 1
  split_ifs <;> first | rfl | (exfalso; bv_omega)

theorem idlLbra4or12 (line : _) (a : _) (p : _) : Statement (.idlLbra4or12 line a p) := by
  intro cfg h
  simp only [WellFormed, idlContext, Bool.and_eq_true, List.contains_eq_mem, List.mem_cons, List.not_mem_nil, or_false,
    decide_eq_true_eq] at h
  show Except.ok (decodeIdlch cfg line a p) = _
  rw [decodeIdlch_eq]
  congr 1
  split_ifs <;> first | rfl | (exfalso; bv_omega)

theorem idlLbra7 (line : _) (a : _) (p : _) : Statement (.idlLbra7 line a p) := by
  intro cfg h
  simp only [WellFormed, idlContext, Bool.and_eq_true, List.contains_eq_mem, List.mem_cons, List.not_mem_nil, or_false,
    decide_eq_true_eq] at h
  show Except.ok (decodeIdlch cfg line a p) = _
  rw [decodeIdlch_eq]
  congr 1
  rw [h.2]
  simp only [and_true]
  split_ifs <;> first | rfl | (exfalso; bv_omega)

theorem idlUnclassified (line : _) (a : _) (p : _) : Statement (.idlUnclassified line a p) := by
  intro cfg h
  simp only [WellFormed, idlContext, Bool.and_eq_true, List.contains_eq_mem,
    decide_eq_true_eq] at h
  obtain ⟨-, hc⟩ := h
  show Except.ok (decodeIdlch cfg line a p) = _
  rw [decodeIdlch_eq]
  congr 1
  cases hb : cfg.idlCh7Lbra
  · simp only [hb, Bool.false_eq_true, if_false, List.mem_cons, List.not_mem_nil, or_false, and_false] at hc ⊢
    split_ifs <;> first | rfl | (exfalso; bv_omega)
  · simp only [hb, if_true, List.mem_cons, List.not_mem_nil, or_false, and_true] at hc ⊢
    split_ifs <;> first | rfl | (exfalso; bv_omega)

theorem idlFormatA (line : _) (a : _) (ft : _) (p : _) : Statement (.idlFormatA line a ft p) := by
  intro cfg h
  simp_all [WellFormed, encode, decode, decodeIdlft_eq]

theorem idlFormatB (line : _) (a : _) (ft : _) (p : _) : Statement (.idlFormatB line a ft p) := by
  intro cfg h
  simp only [WellFormed, Bool.and_eq_true, beq_iff_eq] at h
  show Except.ok (decodeIdlft line a ft p) = _
  have odd := (oddFormat ft).1 h.2
  rw [decodeIdlft_eq, odd, if_neg (by decide), if_pos (show ft.extractLsb' 0 2 = 1 from h.2)]

theorem idlFtOther (line : _) (a : _) (ft : _) (p : _) : Statement (.idlFtOther line a ft p) := by
  intro cfg h
  simp only [WellFormed, Bool.and_eq_true, beq_iff_eq] at h
  show Except.ok (decodeIdlft line a ft p) = _
  have odd := (oddFormat ft).2 h.2
  rw [decodeIdlft_eq, odd.1, if_neg (by decide), if_neg odd.2]

theorem idlSpaReserved (line : _) (a : _) (ft : _) (ial : _) (p : _) : Statement (.idlSpaReserved line a ft ial p) := by
  intro cfg h
  simp_all [WellFormed, encode, decode, decodeIdlial_eq]

theorem idlSpa (line : _) (a : _) (ft : _) (ial : _) (p : _) : Statement (.idlSpa line a ft ial p) := by
  intro cfg h
  simp_all [WellFormed, encode, decode, decodeIdlial_eq]

end Sys2Proof.Laws.DecodeEncode
end

