-- ==== Sys2Proof/Tests/Slice0.lean ====
section
/-!
SUPPORT. The model's own tests: ill-formed instructions refused by each check of WellFormed, one word per row of the
opcode table written out from the encodings of 30_encoding.md and decoded, one step per instruction with the result the
spec's examples give (the rule stands in each comment), and a witness for the hypotheses of every statement.
-/

namespace Sys2Proof.Tests

set_option Elab.async false

open Sys2Proof.Machine

/-! ### Helpers -/

/-- A payload that starts with these bytes. -/
def pay (bytes : List Byte) : Payload := padPayload bytes

/-- A VPS payload that starts with these bytes. -/
def vpay (bytes : List Byte) : VpsPayload := Vector.ofFn (fun i => bytes.getD i 0)

/-- The state reset with the caption channel memory at 1. -/
def onChannel1 : State := { State.reset with ccCh := 1 }

/-- The next state of an outcome. -/
def nextOf : Out → Option State
  | .next t => some t
  | .fault _ => none
  | .refused _ => none

/-- The record a step emits. -/
def recordOf (o : Out) : Option Record := (nextOf o).bind State.rsp

/-- `CC_CH` after a step. -/
def channelOf (o : Out) : Option (BitVec 1) := (nextOf o).map State.ccCh

/-- `VPS_LPOS`, `VPS_LLEN` and `VPS_PLEN` after a step. -/
def labelOf (o : Out) : Option (BitVec 4 × BitVec 5 × BitVec 5) :=
  (nextOf o).map (fun t => (t.vpsLpos, t.vpsLlen, t.vpsPlen))

/-- The Idl kind of the record a step emits. -/
def idlKindOf (o : Out) : Option IdlKind :=
  match recordOf o with
  | some (.idl _ _ _ _ sub _) => some sub
  | _ => none

/-! ### WellFormed refuses an ill-formed instruction, check by check -/

theorem test_illFormed_size_mismatch :
    ([.reqSizeMismatch 0 0 3, .reqSizeMismatch 0 7 3, .reqSizeMismatch 0 4 13] : List Instr).all
      (fun i => !WellFormed defaultConfig i) = true := by
  decide +kernel

theorem test_illFormed_caption_line :
    ([.ccParityError 1024 0x14 0x2C, .ccParityOk 1024 0x94 0x2C, .ccNull 1024 0 0, .ccText 1024 0x41 0,
       .ccInvalidC2 1024 0x14 0, .ccPacUnassigned 1024 0x10 0x60, .ccPac 1024 0x14 0x70,
       .ccBackground 1024 0x10 0x20, .ccMidrow 1024 0x11 0x20, .ccSpecial 1024 0x11 0x30, .ccExtended 1024 0x12 0x20,
       .ccControl 1024 0x14 0x20, .ccReservedA76 1024 0x16 0x20, .ccTo1 1024 0x17 0x21, .ccTo2 1024 0x17 0x22,
       .ccTo3 1024 0x17 0x23, .ccBt 1024 0x17 0x2D, .ccFa 1024 0x17 0x2E, .ccFau 1024 0x17 0x2F,
       .ccUnknown 1024 0x14 0x30] : List Instr).all
      (fun i => !WellFormed defaultConfig i) = true := by
  decide +kernel

theorem test_illFormed_caption_parity :
    ([.ccParityError 0 0x94 0x2C, .ccParityOk 0 0x14 0x2C, .ccParityOk 0 0x94 0xAC] : List Instr).all
      (fun i => !WellFormed defaultConfig i) = true := by
  decide +kernel

theorem test_illFormed_caption_first_byte :
    ([.ccNull 0 1 0, .ccText 0 0x1F 0, .ccInvalidC2 0 0 0, .ccInvalidC2 0 0x20 0, .ccPacUnassigned 0 0x20 0x60,
       .ccPac 0 0 0x70, .ccBackground 0 0 0x20, .ccMidrow 0 0x21 0x20, .ccSpecial 0 0x21 0x30,
       .ccExtended 0 0x22 0x20, .ccControl 0 0x24 0x20, .ccReservedA76 0 0x26 0x20, .ccTo1 0 0x27 0x21,
       .ccTo2 0 0x27 0x22, .ccTo3 0 0x27 0x23, .ccBt 0 0x27 0x2D, .ccFa 0 0x27 0x2E, .ccFau 0 0x27 0x2F,
       .ccUnknown 0 0x20 0x30] : List Instr).all
      (fun i => !WellFormed defaultConfig i) = true := by
  decide +kernel

theorem test_illFormed_caption_address :
    ([.ccPacUnassigned 0 0x11 0x60, .ccPac 0 0x10 0x60, .ccBackground 0 0x11 0x20, .ccMidrow 0 0x10 0x20,
       .ccSpecial 0 0x12 0x30, .ccExtended 0 0x14 0x20, .ccControl 0 0x16 0x20, .ccReservedA76 0 0x17 0x20,
       .ccTo1 0 0x16 0x21, .ccTo2 0 0x16 0x22, .ccTo3 0 0x16 0x23, .ccBt 0 0x16 0x2D, .ccFa 0 0x16 0x2E,
       .ccFau 0 0x16 0x2F, .ccUnknown 0 0x11 0x30] : List Instr).all
      (fun i => !WellFormed defaultConfig i) = true := by
  decide +kernel

theorem test_illFormed_caption_second_byte :
    ([.ccInvalidC2 0 0x14 0x20, .ccPacUnassigned 0 0x10 0x3F, .ccPac 0 0x14 0x3F, .ccBackground 0 0x10 0x30,
       .ccMidrow 0 0x11 0x30, .ccSpecial 0 0x11 0x2F, .ccExtended 0 0x12 0x40, .ccControl 0 0x14 0x30,
       .ccReservedA76 0 0x16 0x40, .ccTo1 0 0x17 0x20, .ccTo2 0 0x17 0x21, .ccTo3 0 0x17 0x24, .ccBt 0 0x17 0x2C,
       .ccFa 0 0x17 0x2D, .ccFau 0 0x17 0x30, .ccUnknown 0 0x10 0x2F, .ccUnknown 0 0x14 0x2F, .ccUnknown 0 0x17 0x21,
       .ccUnknown 0 0x17 0x40] : List Instr).all
      (fun i => !WellFormed defaultConfig i) = true := by
  decide +kernel

theorem test_illFormed_teletext :
    ([.ttxHammingError 1024 0x01 0x15, .ttxHammingError 0 0x15 0x15, .ttx830 1024 (pay [0x15, 0xEA]),
       .ttx830 0 (pay [0x02, 0xEA]), .ttxIdl 1024 0xF3 (pay [0x5E, 0xEA]), .ttxIdl 0 0xF4 (pay [0x5E, 0xEA]),
       .ttxIdl 0 0xF0 (pay [0x15, 0xEA]), .ttxIdl 0 0x01 (pay [0x02, 0x15]), .ttx 1024 0x01 (pay [0x02, 0x15]),
       .ttx 0 0x02 (pay [0x02, 0x15]), .ttx 0 0xF3 (pay [0x5E, 0xEA])] : List Instr).all
      (fun i => !WellFormed defaultConfig i) = true := by
  decide +kernel

theorem test_illFormed_idl_channel :
    ([.idlCh0 0 0xF1 (pay [0x02, 0xEA]), .idlDatavideo5or13 0 0xF6 (pay [0x38, 0xEA]),
       .idlDatavideo6or14 0 0xF5 (pay [0x73, 0xEA]), .idlFormatted8to11 0 0xFC (pay [0xA1, 0xEA]),
       .idlFormatted15 0 0xF8 (pay [0xD0, 0xEA]), .idlLbra4or12 0 0xF7 (pay [0x2F, 0xEA]),
       .idlLbra7 0 0xF4 (pay [0x64, 0xEA]), .idlUnclassified 0 0xF7 (pay [0x2F, 0xEA]),
       .idlLbra4or12 0 0xF5 (pay [0x64, 0xEA]), .idlLbra4or12 0 0x04 (pay [0x64, 0x15]),
       .idlLbra4or12 1024 0xF4 (pay [0x64, 0xEA])] : List Instr).all
      (fun i => !WellFormed defaultConfig i) = true := by
  decide +kernel

theorem test_illFormed_idl_format :
    ([.idlFormatA 0 0xF8 1 (pay [0xD0, 0xEA, 0x02]), .idlFormatA 0 0xF8 2 (pay [0xD0, 0xEA, 0x15]),
       .idlFormatA 0 0xF4 0 (pay [0x64, 0xEA, 0x15]), .idlFormatB 0 0xF8 3 (pay [0xD0, 0xEA, 0x5E]),
       .idlFtOther 0 0xF8 1 (pay [0xD0, 0xEA, 0x02]), .idlSpaReserved 0 0xF8 0 6 (pay [0xD0, 0xEA, 0x15, 0x38]),
       .idlSpa 0 0xF8 0 7 (pay [0xD0, 0xEA, 0x15, 0x2F]), .idlSpa 0 0xF8 0 5 (pay [0xD0, 0xEA, 0x15, 0x38]),
       .idlSpa 0 0xF8 1 6 (pay [0xD0, 0xEA, 0x02, 0x38])] : List Instr).all
      (fun i => !WellFormed defaultConfig i) = true := by
  decide +kernel

/-! ### Decoding: one word per row of the opcode table, written out from its encoding -/

/-- A request word from its fields as 30_encoding.md R70 draws them: LINE, RSVD, LEN, TAG. -/
def requestBits (line : BitVec 16) (rsvd len : BitVec 6) (tag : BitVec 4) : BitVec 32 := line ++ rsvd ++ len ++ tag

theorem test_decode_NOP :
    decode defaultConfig (.req ⟨requestBits 0b0000000000000000#16 0b000000#6 0b000000#6 0b0000#4, pay []⟩) =
      .ok (.nop 0) := by
  decide +kernel

theorem test_decode_DEC_TTX :
    decode defaultConfig (.req ⟨requestBits 0b0000000000010101#16 0b000000#6 0b101010#6 0b0001#4, pay [0x02, 0x15]⟩) =
      .ok (.decTtx 21 (pay [0x02, 0x15])) := by
  decide +kernel

theorem test_decode_DEC_CC525 :
    decode defaultConfig (.req ⟨requestBits 0b0000000000010101#16 0b000000#6 0b000010#6 0b0010#4, pay [0x94, 0x2C]⟩) =
      .ok (.decCc525 21 0x94 0x2C) := by
  decide +kernel

theorem test_decode_DEC_CC625 :
    decode defaultConfig (.req ⟨requestBits 0b0000000000010110#16 0b000000#6 0b000010#6 0b0011#4, pay [0x80, 0x80]⟩) =
      .ok (.decCc625 22 0x80 0x80) := by
  decide +kernel

theorem test_decode_DEC_VPS :
    decode defaultConfig (.req ⟨requestBits 0b0000000000010000#16 0b000000#6 0b001101#6 0b0100#4, pay [1, 2, 3, 4, 5, 6, 7, 8, 9, 10, 11, 12, 13, 14]⟩) =
      .ok (.decVps 16 (vpay [1, 2, 3, 4, 5, 6, 7, 8, 9, 10, 11, 12, 13])) := by
  decide +kernel

theorem test_decode_DEC_WSS625 :
    decode defaultConfig (.req ⟨requestBits 0b0000000000010111#16 0b000000#6 0b000010#6 0b0101#4, pay [0x08, 0x01]⟩) =
      .ok (.decWss625 23 0x08 0x01) := by
  decide +kernel

theorem test_decode_DEC_CPR1204 :
    decode defaultConfig (.req ⟨requestBits 0b0000000000010100#16 0b000000#6 0b000011#6 0b0110#4, pay [1, 2, 3]⟩) =
      .ok (.decCpr1204 20 1 2 3) := by
  decide +kernel

theorem test_decode_NOP_RSV7 :
    decode defaultConfig (.req ⟨requestBits 0b0000000000000001#16 0b111111#6 0b111111#6 0b0111#4, pay []⟩) =
      .ok (.nopRsv7 1) := by
  decide +kernel

theorem test_decode_NOP_RSV8_15 :
    decode defaultConfig (.req ⟨requestBits 0b0000000000000000#16 0b000000#6 0b000000#6 0b1101#4, pay []⟩) =
      .ok (.nopRsv8to15 0 5) := by
  decide +kernel

theorem test_decode_REQ_SIZE_MISMATCH :
    decode defaultConfig (.req ⟨requestBits 0b0000000000000000#16 0b000000#6 0b000011#6 0b0100#4, pay []⟩) =
      .ok (.reqSizeMismatch 0 4 3) := by
  decide +kernel

theorem test_decode_PIN :
    decode defaultConfig (.pin false true (some 0x10)) = .ok .srst ∧
      decode defaultConfig (.pin false false (some 0x10)) = .ok (.rd 0x10) ∧
      decode defaultConfig (.pin true true none) = .ok .porst ∧
      decode defaultConfig (.pin false false none) = .error .nothingPresented := by
  decide +kernel

theorem test_decode_CCRAW :
    decode defaultConfig (.ccraw 21 0x14 0x2C) = .ok (.ccParityError 21 0x14 0x2C) ∧
      decode defaultConfig (.ccraw 21 0x94 0x2C) = .ok (.ccParityOk 21 0x94 0x2C) := by
  decide +kernel

/-- The CC rows: `W = {0, c1, 0, c2}`, 30_encoding.md R76; the pairs are the examples of R130 to R145. -/
theorem test_decode_CC :
    decode defaultConfig (.cc 21 0b0000000001000001) = .ok (.ccNull 21 0x00 0x41) ∧
      decode defaultConfig (.cc 21 0b0100000100101010) = .ok (.ccText 21 0x41 0x2A) ∧
      decode defaultConfig (.cc 21 0b0001010000010000) = .ok (.ccInvalidC2 21 0x14 0x10) ∧
      decode defaultConfig (.cc 21 0b0001000001100000) = .ok (.ccPacUnassigned 21 0x10 0x60) ∧
      decode defaultConfig (.cc 21 0b0001010001110000) = .ok (.ccPac 21 0x14 0x70) ∧
      decode defaultConfig (.cc 21 0b0001100000101111) = .ok (.ccBackground 21 0x18 0x2F) ∧
      decode defaultConfig (.cc 21 0b0001000100101110) = .ok (.ccMidrow 21 0x11 0x2E) ∧
      decode defaultConfig (.cc 21 0b0001000100110111) = .ok (.ccSpecial 21 0x11 0x37) ∧
      decode defaultConfig (.cc 21 0b0001101100111111) = .ok (.ccExtended 21 0x1B 0x3F) ∧
      decode defaultConfig (.cc 21 0b0001110100101111) = .ok (.ccControl 21 0x1D 0x2F) ∧
      decode defaultConfig (.cc 21 0b0001011000100000) = .ok (.ccReservedA76 21 0x16 0x20) ∧
      decode defaultConfig (.cc 21 0b0001011100100001) = .ok (.ccTo1 21 0x17 0x21) ∧
      decode defaultConfig (.cc 21 0b0001011100100010) = .ok (.ccTo2 21 0x17 0x22) ∧
      decode defaultConfig (.cc 21 0b0001011100100011) = .ok (.ccTo3 21 0x17 0x23) ∧
      decode defaultConfig (.cc 21 0b0001011100101101) = .ok (.ccBt 21 0x17 0x2D) ∧
      decode defaultConfig (.cc 21 0b0001111100101110) = .ok (.ccFa 21 0x1F 0x2E) ∧
      decode defaultConfig (.cc 21 0b0001011100101111) = .ok (.ccFau 21 0x17 0x2F) ∧
      decode defaultConfig (.cc 21 0b0001011100100100) = .ok (.ccUnknown 21 0x17 0x24) := by
  decide +kernel

theorem test_decode_CC_rejects : decode defaultConfig (.cc 21 0x942C) = .error .notACaptionWord := by
  decide +kernel

/-- The TTXADDR rows: the address bytes of 45_ttx_addressing.md R231, R236, R239. -/
theorem test_decode_TTXADDR :
    decode defaultConfig (.ttxaddr 7 (pay [0x01, 0x15])) = .ok (.ttxHammingError 7 0x01 0x15) ∧
      decode defaultConfig (.ttxaddr 7 (pay [0x15, 0xEA])) = .ok (.ttx830 7 (pay [0x15, 0xEA])) ∧
      decode defaultConfig (.ttxaddr 7 (pay [0x8C, 0xEA])) = .ok (.ttxIdl 7 0b11111010 (pay [0x8C, 0xEA])) ∧
      decode defaultConfig (.ttxaddr 7 (pay [0x02, 0x15])) = .ok (.ttx 7 0b00000001 (pay [0x02, 0x15])) := by
  decide +kernel

/-- The IDLCH rows: the channel in the low four bits of the address. -/
theorem test_decode_IDLCH :
    decode defaultConfig (.idlch 7 0b11110000 (pay [])) = .ok (.idlCh0 7 0xF0 (pay [])) ∧
      decode defaultConfig (.idlch 7 0b11111101 (pay [])) = .ok (.idlDatavideo5or13 7 0xFD (pay [])) ∧
      decode defaultConfig (.idlch 7 0b11110110 (pay [])) = .ok (.idlDatavideo6or14 7 0xF6 (pay [])) ∧
      decode defaultConfig (.idlch 7 0b11111011 (pay [])) = .ok (.idlFormatted8to11 7 0xFB (pay [])) ∧
      decode defaultConfig (.idlch 7 0b11111111 (pay [])) = .ok (.idlFormatted15 7 0xFF (pay [])) ∧
      decode defaultConfig (.idlch 7 0b11111100 (pay [])) = .ok (.idlLbra4or12 7 0xFC (pay [])) ∧
      decode defaultConfig (.idlch 7 0b11110111 (pay [])) = .ok (.idlLbra7 7 0xF7 (pay [])) ∧
      decode defaultConfig (.idlch 7 0b11110011 (pay [])) = .ok (.idlUnclassified 7 0xF3 (pay [])) := by
  decide +kernel

/-- Channel 7 with `P_IDL_CH7_LBRA` cleared (46_idl.md R252). -/
theorem test_decode_IDLCH_channel7 :
    decode { defaultConfig with idlCh7Lbra := false } (.idlch 7 0xF7 (pay [])) =
      .ok (.idlUnclassified 7 0xF7 (pay [])) := by
  decide +kernel

/-- The IDLFT and IDLIAL rows. -/
theorem test_decode_IDLFT_IDLIAL :
    decode defaultConfig (.idlft 7 0xF8 0b0110 (pay [])) = .ok (.idlFormatA 7 0xF8 6 (pay [])) ∧
      decode defaultConfig (.idlft 7 0xF8 0b0101 (pay [])) = .ok (.idlFormatB 7 0xF8 5 (pay [])) ∧
      decode defaultConfig (.idlft 7 0xF8 0b1011 (pay [])) = .ok (.idlFtOther 7 0xF8 11 (pay [])) ∧
      decode defaultConfig (.idlial 7 0xF8 0 0b1111 (pay [])) = .ok (.idlSpaReserved 7 0xF8 0 15 (pay [])) ∧
      decode defaultConfig (.idlial 7 0xF8 0 0b1110 (pay [])) = .ok (.idlSpa 7 0xF8 0 14 (pay [])) := by
  decide +kernel

/-! ### One step per instruction -/

/-- 40_dispatch.md R104, its corner case. -/
theorem test_NOP :
    recordOf (exec (.nop 0xFFFF) State.reset) = some (.noOp 0xFFFF) := by
  decide +kernel

/-- 40_dispatch.md R104. -/
theorem test_NOP_RSV :
    recordOf (exec (.nopRsv7 3) State.reset) = some (.noOp 3) ∧
      recordOf (exec (.nopRsv8to15 4 7) State.reset) = some (.noOp 4) := by
  decide +kernel

/-- 60_exceptions.md R304, its example, and 40_dispatch.md R112, its example: RD 0x00 then gives 0x11. -/
theorem test_SIZE_MISMATCH :
    recordOf (exec (.reqSizeMismatch 0 4 3) State.reset) = some (.error 0 .sizeMismatch 0 0x0403) ∧
      (nextOf (exec (.rd 0) { State.reset with fault := 1, faultCause := 1 })).bind State.rdata = some 0x11 := by
  decide +kernel

/-- 60_exceptions.md R305, its example; a later fault keeps the first cause (R302). -/
theorem test_LINE_RANGE :
    recordOf (exec (.decWss625 1024 0 0) State.reset) = some (.error 1024 .lineRange 0 0x0400) ∧
      (nextOf (exec (.decWss625 1024 0 0) { State.reset with fault := 1, faultCause := 1 })).map State.faultCause = some 1 := by
  decide +kernel

/-- 40_dispatch.md R105, its example. -/
theorem test_DEC_TTX :
    recordOf (exec (.decTtx 21 (pay [0x02, 0x15, 7])) State.reset) =
      some (.ttx 21 1 0 (afterAddress (pay [0x02, 0x15, 7]))) := by
  decide +kernel

/-- 40_dispatch.md R106, its example: Control EDM, f = 0, and CC_CH becomes 0. -/
theorem test_DEC_CC525 :
    recordOf (exec (.decCc525 21 0x94 0x2C) onChannel1) = some (.cc 21 0 0x14 0x2C (.control 12 (some 0))) ∧
      channelOf (exec (.decCc525 21 0x94 0x2C) onChannel1) = some 0 := by
  decide +kernel

/-- 40_dispatch.md R107, its example. -/
theorem test_DEC_CC625 :
    recordOf (exec (.decCc625 22 0x80 0x80) onChannel1) = some (.cc 22 1 0 0 .null) := by
  decide +kernel

/-- 95_test_vectors.md L1.2. -/
theorem test_DEC_VPS :
    labelOf (exec (.decVps 16 (vpay [0, 0, 0x40, 0, 0, 0, 0, 0, 0xC0, 0, 0x03, 0x41, 0])) State.reset) = some (1, 1, 0) ∧
      recordOf (exec (.decVps 16 (vpay [0, 0, 0x40, 0, 0, 0, 0, 0, 0xC0, 0, 0x03, 0x41, 0])) State.reset) =
        some (.vps ⟨16, 0xDC1, false, 1, 0, 0, .date, 0, 0, 0, 0, 0x2E, false, []⟩) := by
  decide +kernel

/-- 42_vps.md R163, R167, their examples: 'Z' with the flag; day 15, month 6, 20:15. The flush returns the one character before. -/
theorem test_DEC_VPS_flag :
    recordOf (exec (.decVps 16 (vpay [0, 0x5B, 0, 0, 0, 0, 0, 0, 0x1E, 0xD4, 0x3C, 0, 9]))
        { State.reset with vpsLbuf := Vector.replicate 16 0x44, vpsLpos := 1, vpsLlen := 1 }) =
      some (.vps ⟨16, 0, true, 0, 9, 0x7B50F, .date, 15, 6, 20, 15, 0x5A, true, [0x44]⟩) := by
  decide +kernel

/-- 43_wss625.md R196, its second example. -/
theorem test_DEC_WSS625 :
    recordOf (exec (.decWss625 23 0x1E 0x39) State.reset) =
      some (.wss ⟨23, 6, true, false, false, false, true, 0, false, true, true, true, false⟩) := by
  decide +kernel

/-- 44_wss_cpr1204.md R217, its example, and 40_dispatch.md R111, its example. -/
theorem test_DEC_CPR1204 :
    recordOf (exec (.decCpr1204 20 0x48 0xD1 0x10) State.reset) = some (.wssCpr ⟨20, true, 0x1234, 0x48D10, 0⟩) ∧
      (recordOf (exec (.decCpr1204 20 0 0 2) State.reset)) = some (.wssCpr ⟨20, false, 0, 2, 0x2A⟩) := by
  decide +kernel

/-- 40_dispatch.md R108, its example; FAULT stays. -/
theorem test_SRST :
    labelOf (exec .srst { State.reset with fault := 1, vpsLpos := 5, vpsLlen := 5, vpsPlen := 3 }) = some (0, 0, 0) ∧
      (nextOf (exec .srst { State.reset with fault := 1, vpsLlen := 5 })).map State.fault = some 1 := by
  decide +kernel

/-- 10_state.md R38. -/
theorem test_RD :
    (nextOf (exec (.rd 0x1F) { State.reset with vpsLbuf := State.reset.vpsLbuf.set 15 0x41 })).bind State.rdata =
        some 0x41 ∧
      (nextOf (exec (.rd 0x30) onChannel1)).bind State.rdata = some 0 := by
  decide +kernel

/-- 70_reset_and_hazards.md R330. -/
theorem test_PORST :
    nextOf (exec .porst { State.reset with fault := 1, faultCause := 2, ccCh := 1, vpsPlen := 4 }) = some State.reset := by
  rfl

/-- 41_caption.md R120, its example; 40_dispatch.md R106. -/
theorem test_CC_PARITY :
    recordOf (exec (.ccParityError 21 0x14 0x2C) State.reset) = some (.error 21 .parityError 1 0x142C) ∧
      recordOf (exec (.ccParityOk 21 0x94 0x2C) State.reset) = some (.cc 21 0 0x14 0x2C (.control 12 (some 0))) := by
  decide +kernel

/-- 41_caption.md R130, from `CC_CH = 1`. -/
theorem test_CC_NULL :
    recordOf (exec (.ccNull 21 0x00 0x41) onChannel1) = some (.cc 21 1 0x00 0x41 (.null)) ∧
      channelOf (exec (.ccNull 21 0x00 0x41) onChannel1) = some 1 := by
  decide +kernel

/-- 41_caption.md R131, from `CC_CH = 1`. -/
theorem test_CC_TEXT :
    recordOf (exec (.ccText 21 0x41 0x2A) onChannel1) = some (.cc 21 1 0x41 0x2A (.text 0x41 0xE1)) ∧
      channelOf (exec (.ccText 21 0x41 0x2A) onChannel1) = some 1 := by
  decide +kernel

/-- 41_caption.md R132, from `CC_CH = 1`. -/
theorem test_CC_INVALID_C2 :
    recordOf (exec (.ccInvalidC2 21 0x14 0x10) onChannel1) = some (.cc 21 0 0x14 0x10 (.unknown)) ∧
      channelOf (exec (.ccInvalidC2 21 0x14 0x10) onChannel1) = some 1 := by
  decide +kernel

/-- 41_caption.md R134, from `CC_CH = 1`. -/
theorem test_CC_PAC_UNASSIGNED :
    recordOf (exec (.ccPacUnassigned 21 0x10 0x60) onChannel1) = some (.cc 21 0 0x10 0x60 (.unknown)) ∧
      channelOf (exec (.ccPacUnassigned 21 0x10 0x60) onChannel1) = some 1 := by
  decide +kernel

/-- 41_caption.md R133, from `CC_CH = 1`. -/
theorem test_CC_PAC :
    recordOf (exec (.ccPac 21 0x14 0x70) onChannel1) = some (.cc 21 0 0x14 0x70 (.pac 15 0 (.column 0))) ∧
      channelOf (exec (.ccPac 21 0x14 0x70) onChannel1) = some 0 := by
  decide +kernel

/-- 41_caption.md R135, from `CC_CH = 1`. -/
theorem test_CC_BACKGROUND :
    recordOf (exec (.ccBackground 21 0x10 0x20) onChannel1) = some (.cc 21 0 0x10 0x20 (.control 16 none)) ∧
      channelOf (exec (.ccBackground 21 0x10 0x20) onChannel1) = some 0 := by
  decide +kernel

/-- 41_caption.md R136, from `CC_CH = 1`. -/
theorem test_CC_MIDROW :
    recordOf (exec (.ccMidrow 21 0x11 0x2E) onChannel1) = some (.cc 21 0 0x11 0x2E (.midrow 7 0)) ∧
      channelOf (exec (.ccMidrow 21 0x11 0x2E) onChannel1) = some 0 := by
  decide +kernel

/-- 41_caption.md R137, from `CC_CH = 1`. -/
theorem test_CC_SPECIAL :
    recordOf (exec (.ccSpecial 21 0x11 0x37) onChannel1) = some (.cc 21 0 0x11 0x37 (.special 0x266A)) ∧
      channelOf (exec (.ccSpecial 21 0x11 0x37) onChannel1) = some 0 := by
  decide +kernel

/-- 41_caption.md R138, from `CC_CH = 1`. -/
theorem test_CC_EXTENDED :
    recordOf (exec (.ccExtended 21 0x12 0x20) onChannel1) = some (.cc 21 0 0x12 0x20 (.extended 0xC1)) ∧
      channelOf (exec (.ccExtended 21 0x12 0x20) onChannel1) = some 0 := by
  decide +kernel

/-- 41_caption.md R139, from `CC_CH = 1`. -/
theorem test_CC_CONTROL :
    recordOf (exec (.ccControl 21 0x14 0x2C) onChannel1) = some (.cc 21 0 0x14 0x2C (.control 12 (some 0))) ∧
      channelOf (exec (.ccControl 21 0x14 0x2C) onChannel1) = some 0 := by
  decide +kernel

/-- 41_caption.md R140, from `CC_CH = 1`. -/
theorem test_CC_RESERVED_A7_6 :
    recordOf (exec (.ccReservedA76 21 0x16 0x20) onChannel1) = some (.cc 21 0 0x16 0x20 (.unknown)) ∧
      channelOf (exec (.ccReservedA76 21 0x16 0x20) onChannel1) = some 1 := by
  decide +kernel

/-- 41_caption.md R141, from `CC_CH = 1`. -/
theorem test_CC_TO1 :
    recordOf (exec (.ccTo1 21 0x17 0x21) onChannel1) = some (.cc 21 0 0x17 0x21 (.control 32 none)) ∧
      channelOf (exec (.ccTo1 21 0x17 0x21) onChannel1) = some 0 := by
  decide +kernel

/-- 41_caption.md R141, from `CC_CH = 1`. -/
theorem test_CC_TO2 :
    recordOf (exec (.ccTo2 21 0x17 0x22) onChannel1) = some (.cc 21 0 0x17 0x22 (.control 33 none)) ∧
      channelOf (exec (.ccTo2 21 0x17 0x22) onChannel1) = some 0 := by
  decide +kernel

/-- 41_caption.md R141, from `CC_CH = 1`. -/
theorem test_CC_TO3 :
    recordOf (exec (.ccTo3 21 0x17 0x23) onChannel1) = some (.cc 21 0 0x17 0x23 (.control 34 none)) ∧
      channelOf (exec (.ccTo3 21 0x17 0x23) onChannel1) = some 0 := by
  decide +kernel

/-- 41_caption.md R142, from `CC_CH = 1`. -/
theorem test_CC_BT :
    recordOf (exec (.ccBt 21 0x17 0x2D) onChannel1) = some (.cc 21 0 0x17 0x2D (.control 35 none)) ∧
      channelOf (exec (.ccBt 21 0x17 0x2D) onChannel1) = some 0 := by
  decide +kernel

/-- 41_caption.md R143, from `CC_CH = 1`. -/
theorem test_CC_FA :
    recordOf (exec (.ccFa 21 0x1F 0x2E) onChannel1) = some (.cc 21 1 0x1F 0x2E (.control 36 none)) ∧
      channelOf (exec (.ccFa 21 0x1F 0x2E) onChannel1) = some 1 := by
  decide +kernel

/-- 41_caption.md R144, from `CC_CH = 1`. -/
theorem test_CC_FAU :
    recordOf (exec (.ccFau 21 0x17 0x2F) onChannel1) = some (.cc 21 0 0x17 0x2F (.control 37 none)) ∧
      channelOf (exec (.ccFau 21 0x17 0x2F) onChannel1) = some 0 := by
  decide +kernel

/-- 41_caption.md R145, from `CC_CH = 1`. -/
theorem test_CC_UNKNOWN :
    recordOf (exec (.ccUnknown 21 0x17 0x24) onChannel1) = some (.cc 21 0 0x17 0x24 (.unknown)) ∧
      channelOf (exec (.ccUnknown 21 0x17 0x24) onChannel1) = some 1 := by
  decide +kernel

/-- 41_caption.md R138, second example, and R147: `(0x01, 0x45)` is row 1. -/
theorem test_CC_EXTENDED_and_PAC :
    recordOf (exec (.ccExtended 21 0x1B 0x3F) State.reset) = some (.cc 21 1 0x1B 0x3F (.extended 0x2518)) ∧
      recordOf (exec (.ccPac 21 0x01 0x45) State.reset) = some (.cc 21 0 0x01 0x45 (.pac 1 1 (.color 2))) := by
  decide +kernel

/-- 45_ttx_addressing.md R232, R235, their examples; L1.12: address 0xE8 is magazine 8, packet 29. -/
theorem test_TTX :
    recordOf (exec (.ttxHammingError 7 0x01 0x15) State.reset) = some (.error 7 .hammingError 1 0x0115) ∧
      recordOf (exec (.ttx 7 0xE8 (pay [])) State.reset) = some (.ttx 7 8 29 (afterAddress (pay []))) := by
  decide +kernel

/-- 45_ttx_addressing.md R236. -/
theorem test_TTX_830 :
    recordOf (exec (.ttx830 7 (pay [0x15, 0xEA, 5])) State.reset) = some (.ttx830 7 (afterAddress (pay [0x15, 0xEA, 5]))) := by
  decide +kernel

/-- 45_ttx_addressing.md R237, R238: (2, 31) is channel 10. -/
theorem test_TTX_IDL :
    recordOf (exec (.ttxIdl 7 0xFA (pay [0x8C, 0xEA, 0x5E])) State.reset) =
      some (.idl 7 2 31 10 (.unclassified (some 3)) (afterAddress (pay [0x8C, 0xEA, 0x5E]))) := by
  decide +kernel

/-- 46_idl.md R253. -/
theorem test_IDL_CH0 :
    idlKindOf (exec (.idlCh0 7 0xF0 (pay [])) State.reset) = some (.malformed .channel0 none none) := by
  decide +kernel

/-- 46_idl.md R255, its examples. -/
theorem test_IDL_DATAVIDEO :
    idlKindOf (exec (.idlDatavideo5or13 7 0xF5 (pay [0x73, 0xEA, 0, 0x5E, 0x49, 0x02])) State.reset) =
        some (.datavideo 0x123) ∧
      recordOf (exec (.idlDatavideo6or14 7 0xF6 (pay [0x38, 0xEA, 0, 0x01])) State.reset) =
        some (.error 7 .hammingError 2 0xF6) := by
  decide +kernel

/-- 46_idl.md R256, R257, their examples; R259 on channel 15. -/
theorem test_IDL_FORMATTED :
    recordOf (exec (.idlFormatted8to11 7 0xF8 (pay [0xD0, 0xEA, 0x01])) State.reset) =
        some (.error 7 .hammingError 3 0xF8) ∧
      idlKindOf (exec (.idlFormatted15 7 0xFF (pay [0xEA, 0xEA, 0x73, 0x38])) State.reset) = some (.formatB 5 1 6) := by
  decide +kernel

/-- 46_idl.md R254, R252. -/
theorem test_IDL_LBRA :
    idlKindOf (exec (.idlLbra4or12 7 0xF4 (pay [])) State.reset) = some .lowBitRateAudio ∧
      idlKindOf (exec (.idlLbra7 7 0xF7 (pay [])) State.reset) = some .lowBitRateAudio := by
  decide +kernel

/-- 46_idl.md R261. -/
theorem test_IDL_UNCLASSIFIED :
    idlKindOf (exec (.idlUnclassified 7 0xF1 (pay [])) State.reset) = some (.unclassified none) := by
  decide +kernel

/-- 46_idl.md R257: `ial` not correctable, and its first example. -/
theorem test_IDL_FORMAT_A :
    recordOf (exec (.idlFormatA 7 0xF8 0 (pay [0xD0, 0xEA, 0x15, 0x01])) State.reset) =
        some (.error 7 .hammingError 4 0xF8) ∧
      idlKindOf (exec (.idlFormatA 7 0xF8 0 (pay [0xD0, 0xEA, 0x15, 0x5E, 0x8C, 0x9B, 0xA1])) State.reset) =
        some (.formatA 0 3 3 0xCBA) := by
  decide +kernel

/-- 46_idl.md R259: its example, and `ai` not correctable. -/
theorem test_IDL_FORMAT_B :
    idlKindOf (exec (.idlFormatB 7 0xF9 5 (pay [0xC7, 0xEA, 0x73, 0x38])) State.reset) = some (.formatB 5 1 6) ∧
      recordOf (exec (.idlFormatB 7 0xF9 5 (pay [0xC7, 0xEA, 0x73, 0x01])) State.reset) =
        some (.error 7 .hammingError 6 0xF9) := by
  decide +kernel

/-- 46_idl.md R260, its example. -/
theorem test_IDL_FT_OTHER :
    idlKindOf (exec (.idlFtOther 7 0xFB 3 (pay [0x5E, 0xEA, 0x5E])) State.reset) = some (.unclassified (some 3)) := by
  decide +kernel

/-- 46_idl.md R258, its example. -/
theorem test_IDL_SPA_RESERVED :
    idlKindOf (exec (.idlSpaReserved 7 0xF8 0 7 (pay [0xD0, 0xEA, 0x15, 0x2F, 0x01, 0x01])) State.reset) =
      some (.malformed .spaLengthReserved (some 0) (some 7)) := by
  decide +kernel

/-- 46_idl.md R257: six nibbles, and the first of six not correctable. -/
theorem test_IDL_SPA :
    idlKindOf (exec (.idlSpa 7 0xF8 0 6 (pay [0xD0, 0xEA, 0x15, 0x38, 0xEA, 0xEA, 0xEA, 0xEA, 0xEA, 0xEA])) State.reset) =
        some (.formatA 0 6 6 0xFFFFFF) ∧
      recordOf (exec (.idlSpa 7 0xF8 0 6 (pay [0xD0, 0xEA, 0x15, 0x38, 0x01])) State.reset) =
        some (.error 7 .hammingError 5 0xF8) := by
  decide +kernel

/-- 10_state.md R31, R32: a step takes the presented request; with the opcode table's words, the request they stand
for. -/
theorem test_step_fetchWord :
    recordOf (step (State.reset.withFetchWord 32 0x00000034)) = some (.error 0 .sizeMismatch 0 0x0403) ∧
      recordOf (step (State.reset.withFetchWord 16 0x142C)) = some (.cc 0 0 0x14 0x2C (.control 12 (some 0))) := by
  decide +kernel

/-! ### Witnesses: for each statement with hypotheses, values that meet them together, clause by clause -/

/-- A request with this word and a zero buffer. -/
def reqOf (line : Line) (len : BitVec 6) (tag : BitVec 4) : Request := ⟨reqWord line len tag, pay []⟩

theorem witness_NopEmitsNoOp :
    ∀ tag ∈ [0#4, 7#4, 15#4], field (reqOf 0xFFFF 63 tag).word 3 0 = 0 ∨ 7 ≤ field (reqOf 0xFFFF 63 tag).word 3 0 := by
  decide +kernel

theorem witness_SizeMismatchFaults :
    (∀ x ∈ [(1#4, 41#6), (1#4, 43#6), (6#4, 2#6), (6#4, 63#6), (4#4, 0#6)],
      1 ≤ field (reqOf 0xFFFF x.2 x.1).word 3 0 ∧ field (reqOf 0xFFFF x.2 x.1).word 3 0 ≤ 6 ∧
        field (reqOf 0xFFFF x.2 x.1).word 9 4 ≠ serviceWidth (field (reqOf 0xFFFF x.2 x.1).word 3 0)) ∧
      (1 ≤ (1#4).toNat ∧ (6#4).toNat ≤ 6 ∧ (41#6).toNat ≠ serviceWidth (1#4).toNat ∧
        (63#6).toNat ≠ serviceWidth (6#4).toNat) := by
  decide +kernel

theorem witness_LineRangeFaults :
    (1023 < field (reqOf 1024 3 6).word 31 16 ∧ 1023 < field (reqOf 0xFFFF 3 6).word 31 16) ∧
      (field (reqOf 0 3 6).word 31 16 ≤ 1023 ∧ field (reqOf 1023 3 6).word 31 16 ≤ 1023) ∧
      (1 ≤ field (reqOf 0 3 6).word 3 0 ∧ field (reqOf 0 3 6).word 3 0 ≤ 6 ∧
        field (reqOf 0 3 6).word 9 4 = serviceWidth (field (reqOf 0 3 6).word 3 0)) ∧
      (1 ≤ field (reqOf 0xFFFF 42 1).word 3 0 ∧ field (reqOf 0xFFFF 42 1).word 9 4 = serviceWidth (field (reqOf 0xFFFF 42 1).word 3 0)) := by
  decide +kernel

theorem witness_LineRangeFaults_operations :
    (1023 < (1024#16).toNat ∧ .decTtx 1024 (pay []) ∈ services 1024 (pay []) (vpay []) 0 0 0) ∧
      (1023 < (0xFFFF#16).toNat ∧ .decCpr1204 0xFFFF 1 2 3 ∈ services 0xFFFF (pay []) (vpay []) 1 2 3) := by
  simp [services]

theorem witness_RequestSelectsService :
    field (reqOf 0 63 0).word 3 0 = 0 ∧
      (field (reqOf 0 42 1).word 3 0 = 1 ∧ field (reqOf 0 42 1).word 9 4 = 42) ∧
      (field (reqOf 0 2 2).word 3 0 = 2 ∧ field (reqOf 0 2 2).word 9 4 = 2) ∧
      (field (reqOf 0 2 3).word 3 0 = 3 ∧ field (reqOf 0 2 3).word 9 4 = 2) ∧
      (field (reqOf 0 13 4).word 3 0 = 4 ∧ field (reqOf 0 13 4).word 9 4 = 13) ∧
      (field (reqOf 0 2 5).word 3 0 = 5 ∧ field (reqOf 0 2 5).word 9 4 = 2) ∧
      (field (reqOf 0 3 6).word 3 0 = 6 ∧ field (reqOf 0 3 6).word 9 4 = 3) ∧
      field (reqOf 0 0 7).word 3 0 = 7 ∧ 8 ≤ field (reqOf 0 0 8).word 3 0 ∧ 8 ≤ field (reqOf 0 0 15).word 3 0 := by
  decide +kernel

/-- Two requests that differ in `RSVD` and in the data bytes from `LEN` on. -/
theorem witness_RsvdAndUnreadBytesIgnored :
    ∃ r r' : Request, r ≠ r' ∧ field r.word 3 0 = field r'.word 3 0 ∧ field r.word 9 4 = field r'.word 9 4 ∧
      field r.word 31 16 = field r'.word 31 16 ∧
      ∀ k : Fin 42, k.val < field r.word 9 4 → r.data[k.val] = r'.data[k.val] :=
  ⟨⟨0x00150022, pay [0x94, 0x2C, 1]⟩, ⟨0x0015FC22, pay [0x94, 0x2C, 2]⟩, by decide +kernel⟩

theorem witness_LineIsOnlyCopied :
    ∃ t i i', (0#16).toNat ≤ 1023 ∧ (1023#16).toNat ≤ 1023 ∧
      (services 0 (pay []) (vpay []) 1 2 3)[5]? = some i ∧ (services 1023 (pay []) (vpay []) 1 2 3)[5]? = some i' ∧
      exec i State.reset = .next t :=
  ⟨_, _, _, by decide, by decide, rfl, rfl, rfl⟩

theorem witness_ServiceRecord :
    (0#16).toNat ≤ 1023 ∧ (1023#16).toNat ≤ 1023 ∧ .decVps 1023 (vpay []) ∈ services 1023 (pay []) (vpay []) 1 2 3 := by
  simp [services]

theorem witness_PorstResult : ∃ t, exec .porst onChannel1 = .next t := ⟨_, rfl⟩

/-- One presentation for each input of StepRunsPresented. -/
theorem witness_StepRunsPresented :
    (∃ p, ({ State.reset with inputs := [⟨true, true, none, some 0⟩] } : State).inputs = p :: [] ∧ p.porst = true) ∧
      (∃ p, ({ State.reset with inputs := [⟨false, true, none, none⟩] } : State).inputs = p :: [] ∧
        p.porst = false ∧ p.srst = true) ∧
      (∃ p r i, ({ State.reset with inputs := [⟨false, false, some (reqOf 0 3 4), some 0⟩] } : State).inputs = p :: [] ∧
        p.porst = false ∧ p.srst = false ∧ p.req = some r ∧ decode State.reset.cfg (.req r) = .ok i) ∧
      (∃ p, ({ State.reset with inputs := [⟨false, false, none, some 0xFF⟩] } : State).inputs = p :: [] ∧
        p.porst = false ∧ p.srst = false ∧ p.req = none ∧ p.raddr = some 0xFF) :=
  ⟨⟨_, rfl, rfl⟩, ⟨_, rfl, rfl, rfl⟩, ⟨_, _, _, rfl, rfl, rfl, rfl, rfl⟩, ⟨_, rfl, rfl, rfl, rfl, rfl⟩⟩

theorem witness_IdleStep :
    State.reset.inputs = [] ∧
      ({ State.reset with inputs := [Ports.idle, Ports.idle] } : State).inputs = Ports.idle :: [Ports.idle] :=
  ⟨rfl, rfl⟩

theorem witness_SimultaneousInputs :
    ∃ i, ({ State.reset with inputs := [⟨true, true, some (reqOf 0 3 4), some 0⟩] } : State).inputs =
        ⟨true, true, some (reqOf 0 3 4), some 0⟩ :: [] ∧
      decode State.reset.cfg (.req (reqOf 0 3 4)) = .ok i :=
  ⟨_, rfl, rfl⟩

/-- FAULT 1 and FAULT 0 before, and a fault raised. -/
theorem witness_HardFaultIsSticky :
    (∃ t, exec (.reqSizeMismatch 0 4 3) { State.reset with fault := 1, faultCause := 2 } = .next t ∧
        Instr.reqSizeMismatch 0 4 3 ≠ .porst ∧ ({ State.reset with fault := 1, faultCause := 2 } : State).fault = 1) ∧
      (∃ t, exec (.reqSizeMismatch 0 4 3) State.reset = .next t ∧ Instr.reqSizeMismatch 0 4 3 ≠ .porst ∧
        State.reset.fault = 0) :=
  ⟨⟨_, rfl, by simp, rfl⟩, ⟨_, rfl, by simp, rfl⟩⟩

theorem witness_RegistersWritten :
    (∃ t, exec (.nop 0) onChannel1 = .next t) ∧ ¬ writesChannel (.nop 0) ∧ ¬ writesLabel (.nop 0) ∧
      ¬ writesFault (.nop 0) ∧
      (∃ t, exec (.reqSizeMismatch 0 4 3) onChannel1 = .next t ∧
        t.rsp = some (.error 0 .sizeMismatch 0 0x0403)) := by
  refine ⟨⟨_, rfl⟩, ?_, ?_, ?_, ⟨_, rfl, rfl⟩⟩ <;> simp [writesChannel, writesLabel, writesFault, services]

theorem witness_RepeatIsIdempotent :
    ∃ t, exec (.decWss625 23 0x08 1) onChannel1 = .next t ∧ (∀ line p, Instr.decWss625 23 0x08 1 ≠ .decVps line p) ∧
      (∀ line b0 b1, Instr.decWss625 23 0x08 1 ≠ .decCc525 line b0 b1 ∧ Instr.decWss625 23 0x08 1 ≠ .decCc625 line b0 b1) :=
  ⟨_, rfl, by simp, by simp⟩

/-- Two states that differ in the model's own fields only. -/
theorem witness_ResultDependsOnRegisters :
    ∃ t, ({ State.reset with pc := 5, inputs := [Ports.idle], rdata := some 1 } : State).cfg = State.reset.cfg ∧
      sameRegisters State.reset { State.reset with pc := 5, inputs := [Ports.idle], rdata := some 1 } ∧
      exec (.decCc525 21 0x94 0x2C) State.reset = .next t :=
  ⟨_, rfl, ⟨rfl, rfl, rfl, rfl, rfl, rfl, rfl, rfl⟩, rfl⟩

theorem witness_SrstForgetsTheSession :
    ∃ t t', State.reset.cfg = ({ onChannel1 with fault := 1, vpsLlen := 7 } : State).cfg ∧
      exec .srst { onChannel1 with fault := 1, vpsLlen := 7 } = .next t ∧ exec .srst State.reset = .next t' :=
  ⟨_, _, rfl, rfl, rfl⟩

/-- A state with a character in the label and a fault behind it. -/
def labelled : State :=
  { State.reset with
    fault := 1
    faultCause := 2
    vpsLbuf := State.reset.vpsLbuf.set 0 0x41
    vpsLpos := 1
    vpsLlen := 1
    inputs := [⟨false, false, some ⟨reqWord 16 13 4, pay [0, 0x5B]⟩, none⟩] }

theorem witness_StepKeepsTheInvariant : ∃ t, labelled.Inv ∧ step labelled = .next t := by
  refine ⟨_, ?_, rfl⟩
  unfold State.Inv State.faultInv State.labelInv State.charInv
  decide +kernel

theorem witness_RecordsAreLegal : ∃ t r, step labelled = .next t ∧ t.rsp = some r := ⟨_, _, rfl, rfl⟩

/-- The first, the second and both bytes with even parity, on the lines 0 and 1023. -/
theorem witness_ParityErrorResult :
    (ones 0x14#8 % 2 = 0 ∧ ones 0x2C#8 % 2 = 1) ∧ (ones 0x94#8 % 2 = 1 ∧ ones 0xAC#8 % 2 = 0) ∧
      (ones 0x00#8 % 2 = 0 ∧ ones 0xFF#8 % 2 = 0) ∧ (0#16).toNat ≤ 1023 ∧ (1023#16).toNat ≤ 1023 := by
  decide +kernel

theorem witness_CaptionRunsItsRow :
    ones 0x94#8 % 2 = 1 ∧ ones 0x2C#8 % 2 = 1 ∧ ones 0x80#8 % 2 = 1 ∧ (0#16).toNat ≤ 1023 ∧ (1023#16).toNat ≤ 1023 := by
  decide +kernel

theorem witness_CaptionText : 0x20 ≤ (0x20#7).toNat ∧ 0x20 ≤ (0x7F#7).toNat := by
  decide

/-- The pairs of the five clauses at the ends of their ranges (the default row table, and one without a row). -/
theorem witness_CaptionUnknown :
    (∀ c1 ∈ [1#7, 0x1F#7], 1 ≤ c1.toNat ∧ c1.toNat ≤ 0x1F) ∧ (0#7).toNat < 0x20 ∧ (0x1F#7).toNat < 0x20 ∧
      (0x40 ≤ (0x60#7).toNat ∧ defaultConfig.pacRow.toList.getD (2 * ((0x10#7).toNat % 8) + field 0x60#7 5 5) 0 = 0) ∧
      (0x40 ≤ (0x40#7).toNat ∧ (Vector.replicate 16 0#4).toList.getD (2 * ((0x1F#7).toNat % 8) + field 0x40#7 5 5) 0 = 0) ∧
      (∀ c2 ∈ [0x20#7, 0x3F#7], (0x16#7).toNat % 8 = 6 ∧ 0x20 ≤ c2.toNat ∧ c2.toNat ≤ 0x3F) ∧
      (∀ c1 ∈ [0x10#7, 0x14#7, 0x15#7], c1.toNat % 8 = 0 ∨ c1.toNat % 8 = 4 ∨ c1.toNat % 8 = 5) ∧
      (∀ c2 ∈ [0x30#7, 0x3F#7], 0x30 ≤ c2.toNat ∧ c2.toNat ≤ 0x3F) ∧
      (∀ c2 ∈ [0x20#7, 0x24#7, 0x2C#7, 0x30#7, 0x3F#7], (0x17#7).toNat % 8 = 7 ∧ 0x20 ≤ c2.toNat ∧ c2.toNat ≤ 0x3F ∧
        c2.toNat ∉ [0x21, 0x22, 0x23, 0x2D, 0x2E, 0x2F]) := by
  decide +kernel

theorem witness_CaptionUnknown_clause :
    (0x20#7).toNat ≤ 0x3F ∧ (0x40 ≤ (0x60#7).toNat ∧
      State.reset.cfg.pacRow.toList.getD (2 * ((0x10#7).toNat % 8) + field 0x60#7 5 5) 0 = 0 ∧
      Instr.ccPacUnassigned 0 0x10 0x60 = .ccPacUnassigned 0 0x10 0x60) := by
  decide +kernel

theorem witness_CaptionPac :
    ∀ c1 ∈ [0x01#7, 0x14#7, 0x1F#7], ∀ c2 ∈ [0x40#7, 0x70#7, 0x7F#7],
      1 ≤ c1.toNat ∧ c1.toNat ≤ 0x1F ∧ 0x40 ≤ c2.toNat ∧
        State.reset.cfg.pacRow.toList.getD (2 * (c1.toNat % 8) + field c2 5 5) 0 ≠ 0 := by
  decide +kernel

theorem witness_CaptionMidrow :
    ∀ c1 ∈ [0x01#7, 0x19#7], ∀ c2 ∈ [0x20#7, 0x2F#7], 1 ≤ c1.toNat ∧ c1.toNat ≤ 0x1F ∧ c1.toNat % 8 = 1 ∧
      0x20 ≤ c2.toNat ∧ c2.toNat ≤ 0x2F := by
  decide +kernel

theorem witness_CaptionSpecial :
    ∀ c1 ∈ [0x01#7, 0x19#7], ∀ c2 ∈ [0x30#7, 0x3F#7], 1 ≤ c1.toNat ∧ c1.toNat ≤ 0x1F ∧ c1.toNat % 8 = 1 ∧
      0x30 ≤ c2.toNat ∧ c2.toNat ≤ 0x3F := by
  decide +kernel

theorem witness_CaptionExtended :
    ∀ c1 ∈ [0x02#7, 0x03#7, 0x1A#7, 0x1B#7], ∀ c2 ∈ [0x20#7, 0x3F#7], 1 ≤ c1.toNat ∧ c1.toNat ≤ 0x1F ∧ (c1.toNat % 8 = 2 ∨ c1.toNat % 8 = 3) ∧
      0x20 ≤ c2.toNat ∧ c2.toNat ≤ 0x3F := by
  decide +kernel

theorem witness_CaptionBackgroundAndControl :
    ∀ c2 ∈ [0x20#7, 0x2F#7], 0x20 ≤ c2.toNat ∧ c2.toNat ≤ 0x2F ∧
      (∀ c1 ∈ [0x08#7, 0x18#7], 1 ≤ c1.toNat ∧ c1.toNat ≤ 0x1F ∧ c1.toNat % 8 = 0) ∧
      (∀ c1 ∈ [0x04#7, 0x1D#7], 1 ≤ c1.toNat ∧ c1.toNat ≤ 0x1F ∧ (c1.toNat % 8 = 4 ∨ c1.toNat % 8 = 5)) := by
  decide +kernel

theorem witness_CaptionExactCodes :
    ∀ c1 ∈ [0x07#7, 0x1F#7], 1 ≤ c1.toNat ∧ c1.toNat ≤ 0x1F ∧ c1.toNat % 8 = 7 ∧
      (0x21#7, 31 + 1, Instr.ccTo1 0 c1 0x21) ∈ [(0x21#7, 31 + 1, Instr.ccTo1 0 c1 0x21), (0x22#7, 31 + 2, .ccTo2 0 c1 0x21),
        (0x23#7, 31 + 3, .ccTo3 0 c1 0x21), (0x2D#7, 35, .ccBt 0 c1 0x21), (0x2E#7, 36, .ccFa 0 c1 0x21),
        (0x2F#7, 37, .ccFau 0 c1 0x21)] ∧
      (0x2F#7, 37, Instr.ccFau 0 c1 0x2F) ∈ [(0x21#7, 31 + 1, Instr.ccTo1 0 c1 0x2F), (0x22#7, 31 + 2, .ccTo2 0 c1 0x2F),
        (0x23#7, 31 + 3, .ccTo3 0 c1 0x2F), (0x2D#7, 35, .ccBt 0 c1 0x2F), (0x2E#7, 36, .ccFa 0 c1 0x2F),
        (0x2F#7, 37, .ccFau 0 c1 0x2F)] := by
  decide +kernel

/-- A record of each caption kind. -/
theorem witness_ChannelMemory :
    ∀ x ∈ [(Instr.ccNull 0 0 5, CcKind.null), (.ccText 0 0x41 0, .text 0x41 0), (.ccUnknown 0 0x17 0x24, .unknown),
        (.ccPac 0 0x14 0x70, .pac 15 0 (.column 0)), (.ccMidrow 0 0x11 0x2E, .midrow 7 0),
        (.ccSpecial 0 0x11 0x37, .special 0x266A), (.ccExtended 0 0x12 0x20, .extended 0xC1),
        (.ccControl 0 0x14 0x2C, .control 12 (some 0))],
      ∃ t ch c1 c2, exec x.1 State.reset = .next t ∧ t.rsp = some (.cc 0 ch c1 c2 x.2) := by
  simp only [List.forall_mem_cons, List.not_mem_nil, false_imp_iff, implies_true, and_true]
  exact ⟨⟨_, _, _, _, rfl, rfl⟩, ⟨_, _, _, _, rfl, rfl⟩, ⟨_, _, _, _, rfl, rfl⟩, ⟨_, _, _, _, rfl, rfl⟩,
    ⟨_, _, _, _, rfl, rfl⟩, ⟨_, _, _, _, rfl, rfl⟩, ⟨_, _, _, _, rfl, rfl⟩, ⟨_, _, _, _, rfl, rfl⟩⟩

theorem witness_CaptionRecord :
    ((0#16).toNat ≤ 1023 ∧ (1023#16).toNat ≤ 1023) ∧ ones 0x80#8 % 2 = 1 ∧ ones 0x2C#8 % 2 = 1 := by
  decide +kernel

theorem witness_DefaultPacRows : 1#4 ≠ 0 ∧ 15#4 ≠ 0 ∧ 0 < 16 ∧ 15 < 16 := by
  decide

/-- A packet without and with the label flag, on the lines 0 and 1023; the named values are the ones the statement
defines. -/
theorem witness_VpsResult :
    ∀ b ∈ [0x00#8, 0xFF#8], ∃ (p : VpsPayload) (code ch pos len cni pil : Nat),
      p[1] = b ∧ (0#16).toNat ≤ 1023 ∧ (1023#16).toNat ≤ 1023 ∧ code = labelCode p[1] ∧
        ch = (if 0x20 ≤ code ∧ code ≤ 0x7E then code else 0x2E) ∧
        pos = (if field p[1] 0 0 = 1 then 0 else labelled.vpsLpos.toNat) ∧
        len = (if field p[1] 0 0 = 1 then 0 else labelled.vpsLlen.toNat) ∧
        cni = 1024 * field p[10] 1 0 + 256 * field p[11] 7 6 + 64 * field p[8] 7 6 + field p[11] 5 0 ∧
        pil = 16384 * field p[8] 5 0 + 64 * p[9].toNat + field p[10] 7 2 := by
  intro b _
  exact ⟨Vector.replicate 13 b, _, _, _, _, _, _, by simp, by decide, by decide, rfl, rfl, rfl, rfl, rfl, rfl⟩

/-- The sixteen characters `A`, the flag on the first packet and on the seventeenth. -/
theorem witness_LabelRoundTrip :
    ∃ (line : Fin 17 → Line) (p : Fin 17 → VpsPayload) (chars : Vector Char7 16),
      (∀ k, (line k).toNat ≤ 1023) ∧ (∀ k : Fin 16, isPrintable chars[k.val]) ∧
      (∀ k : Fin 16, (p k.castSucc)[1] = rev8 ((if k.val = 0 then 1#1 else 0#1) ++ chars[k.val])) ∧
      field (p 16)[1] 0 0 = 1 :=
  ⟨fun _ => 1023, fun k => vpay [0, rev8 ((if k.val % 16 = 0 then 1#1 else 0#1) ++ 0x41#7)], Vector.replicate 16 0x41,
    by decide +kernel, by decide +kernel, by decide +kernel, by decide +kernel⟩

/-- Two payloads that differ in every bit the service does not use. -/
theorem witness_VpsUnusedBits :
    ∃ p q : VpsPayload, p[0] ≠ q[0] ∧ p[1] = q[1] ∧ field p[2] 7 6 = field q[2] 7 6 ∧ p[8] = q[8] ∧ p[9] = q[9] ∧
      p[10] = q[10] ∧ p[11] = q[11] ∧ p[12] = q[12] :=
  ⟨vpay [0, 1, 0xC0, 0, 0, 0, 0, 0, 8, 9, 10, 11, 12],
    vpay [0xFF, 1, 0xFF, 0xFF, 0xFF, 0xFF, 0xFF, 0xFF, 8, 9, 10, 11, 12], by decide +kernel⟩

theorem witness_line_in_range_WssResult_CprResult_TeletextRunsItsRow :
    (0#16).toNat ≤ 1023 ∧ (1023#16).toNat ≤ 1023 := by
  decide

theorem witness_SingleBitErrors :
    (0 < 20 ∧ 19 < 20 ∧ cprRem 0x48D10 = 0) ∧
      ((cprRecord 20 0x48 0xD1 0x10).crcOk = true ∧ (∀ k ∈ [0, 3, 4, 7], k < 8) ∧ 4 ≤ 4 ∧ 4 ≤ 7 ∧ 0 < 4 ∧ 3 < 4) := by
  decide +kernel

theorem witness_CprOverlap : 0 < 4 ∧ 3 < 4 := by
  decide

theorem witness_HammingDecode :
    (unham8 defaultConfig 0x01 = none ∨ unham8 defaultConfig 0x15 = none) ∧
      (unham8 defaultConfig 0x15 = some 0 ∧ unham8 defaultConfig 0xEA = some 15) ∧
      (1 ≤ 1 ∧ 1 ≤ 8 ∧ 0 < 32) ∧ (1 ≤ 8 ∧ 8 ≤ 8 ∧ 31 < 32) := by
  decide +kernel

theorem witness_TeletextResults :
    unham16 State.reset.cfg 0x01 0x15 = none ∧ field 0x00#8 7 3 ≤ 29 ∧ field 0xEF#8 7 3 ≤ 29 := by
  decide +kernel

/-- The payload bytes of the four cases of the address. -/
theorem witness_TeletextRunsItsRow_cases :
    unham16 State.reset.cfg (pay [0x01, 0x15])[0] (pay [0x01, 0x15])[1] = none ∧
      unham16 State.reset.cfg (pay [0x15, 0xEA])[0] (pay [0x15, 0xEA])[1] = some 0xF0 ∧
      unham16 State.reset.cfg (pay [0x02, 0xEA])[0] (pay [0x02, 0xEA])[1] = some 0xF1 ∧
      unham16 State.reset.cfg (pay [0xEA, 0xFD])[0] (pay [0xEA, 0xFD])[1] = some 0xEF := by
  decide +kernel

theorem witness_IdlRunsItsRow :
    field 0xF0#8 3 0 = 0 ∧ (∀ a ∈ [0xF5#8, 0xFD#8], field a 3 0 ∈ [5, 13]) ∧
      (∀ a ∈ [0xF6#8, 0xFE#8], field a 3 0 ∈ [6, 14]) ∧
      (∀ a ∈ [0xF8#8, 0xF9#8, 0xFA#8, 0xFB#8], field a 3 0 ∈ [8, 9, 10, 11]) ∧ field 0xFF#8 3 0 = 15 ∧
      (∀ a ∈ [0xF4#8, 0xFC#8], field a 3 0 ∈ [4, 12]) ∧ field 0xF7#8 3 0 = 7 ∧
      (∀ a ∈ [0xF1#8, 0xF2#8, 0xF3#8], field a 3 0 ∈ [1, 2, 3]) := by
  decide +kernel

theorem witness_IdlPlainResults :
    field 0xF0#8 3 0 = 0 ∧ (field 0xF4#8 3 0 ∈ [4, 12] ∧ field 0xFC#8 3 0 ∈ [4, 12]) ∧
      (field 0xF7#8 3 0 = 7 ∧ State.reset.cfg.idlCh7Lbra = true) ∧
      (field 0xF1#8 3 0 ∈ [1, 2, 3] ∧ field 0xF3#8 3 0 ∈ [1, 2, 3]) ∧
      ({ State.reset with cfg := { defaultConfig with idlCh7Lbra := false } } : State).cfg.idlCh7Lbra = false := by
  decide +kernel

theorem witness_ChannelZeroUnreachable :
    30 ≤ field 0xF0#8 7 3 ∧ 30 ≤ field 0xFF#8 7 3 ∧ ∃ t, exec (.decTtx 21 (pay [0x8C, 0xEA])) State.reset = .next t :=
  ⟨by decide +kernel, by decide +kernel, _, rfl⟩

theorem witness_DatavideoResult :
    ∃ p q : Payload, ∃ n0 n1 n2,
      field 0xF5#8 3 0 ∈ [5, 13] ∧ field 0xFD#8 3 0 ∈ [5, 13] ∧ field 0xF6#8 3 0 ∈ [6, 14] ∧ field 0xFE#8 3 0 ∈ [6, 14] ∧
      (unham8 State.reset.cfg p[3] = none ∨ unham8 State.reset.cfg p[4] = none ∨ unham8 State.reset.cfg p[5] = none) ∧
      unham8 State.reset.cfg q[3] = some n0 ∧ unham8 State.reset.cfg q[4] = some n1 ∧
      unham8 State.reset.cfg q[5] = some n2 :=
  ⟨pay [0x73, 0xEA, 0, 0x5E, 0x49, 0x01], pay [0x73, 0xEA, 0, 0x5E, 0x49, 0x02], 3, 2, 1, by decide +kernel⟩

theorem witness_FormattedRunsItsRow :
    (field 0xF8#8 3 0 ∈ [8, 9, 10, 11] ∧ field 0xFB#8 3 0 ∈ [8, 9, 10, 11] ∧ field 0xFF#8 3 0 = 15) ∧
      unham8 State.reset.cfg (pay [0, 0, 0x01])[2] = none ∧
      (unham8 State.reset.cfg (pay [0, 0, 0x15])[2] = some 0 ∧ (0#4).toNat % 2 = 0) ∧
      (unham8 State.reset.cfg (pay [0, 0, 0x02])[2] = some 1 ∧ (1#4).toNat % 4 = 1) ∧
      (unham8 State.reset.cfg (pay [0, 0, 0x5E])[2] = some 3 ∧ (3#4).toNat % 4 = 3) ∧
      (unham8 State.reset.cfg (pay [0, 0, 0xEA])[2] = some 15 ∧ (15#4).toNat % 4 = 3) := by
  decide +kernel

theorem witness_FormatARunsItsRow_FormatBAndOtherResults :
    unham8 State.reset.cfg (pay [0, 0, 0, 0x01])[3] = none ∧
      unham8 State.reset.cfg (pay [0, 0, 0, 0x15])[3] = some 0 ∧
      unham8 State.reset.cfg (pay [0, 0, 0, 0xEA])[3] = some 15 ∧
      (field 7#4 2 0 = 7 ∧ field 15#4 2 0 = 7) ∧ ((0#4).toNat % 2 = 0 ∧ (14#4).toNat % 2 = 0) ∧
      ((1#4).toNat % 4 = 1 ∧ (13#4).toNat % 4 = 1) ∧ ((3#4).toNat % 4 = 3 ∧ (15#4).toNat % 4 = 3) := by
  decide +kernel

/-- Address lengths 0 and 6: at 0 no byte is read, at 6 the last of the six is or is not correctable. -/
theorem witness_ServicePacketAddress :
    ∃ p q : Payload, (0#4).toNat % 2 = 0 ∧ field 8#4 2 0 ≤ 6 ∧ field 6#4 2 0 ≤ 6 ∧
      (∃ k, k < field 6#4 2 0 ∧ unham8 State.reset.cfg (p.toList.getD (4 + k) 0) = none) ∧
      (([] : List (BitVec 4)).length = field 8#4 2 0 ∧
        ∀ k, k < field 8#4 2 0 → unham8 State.reset.cfg (p.toList.getD (4 + k) 0) = ([] : List (BitVec 4))[k]?) ∧
      ([0#4, 1, 2, 3, 4, 5].length = field 6#4 2 0 ∧
        ∀ k, k < field 6#4 2 0 → unham8 State.reset.cfg (q.toList.getD (4 + k) 0) = [0#4, 1, 2, 3, 4, 5][k]?) :=
  ⟨pay [0xD0, 0xEA, 0x15, 0x38, 0x15, 0x02, 0x49, 0x5E, 0x64, 0x01],
    pay [0xD0, 0xEA, 0x15, 0x38, 0x15, 0x02, 0x49, 0x5E, 0x64, 0x73],
    by decide, by decide +kernel, by decide +kernel, ⟨5, by decide +kernel⟩, by decide +kernel, by decide +kernel⟩

theorem witness_DecodeEncodeAgree :
    ([.nop 0, .nopRsv7 0, .nopRsv8to15 0 7, .decTtx 0xFFFF (pay []), .reqSizeMismatch 0 1 41, .rd 0xFF,
       .ccParityError 1023 0x14 0x2C, .ccParityOk 0 0x94 0x2C, .ccUnknown 0 0x17 0x24, .ttxHammingError 0 0x01 0x15,
       .ttxIdl 0 0xFF (pay [0xEA, 0xEA]), .idlLbra7 0 0xF7 (pay [0x2F, 0xEA]),
       .idlSpa 0 0xF8 0 6 (pay [0xD0, 0xEA, 0x15, 0x38])] : List Instr).all (WellFormed defaultConfig) = true := by
  decide +kernel

end Sys2Proof.Tests
end

section
/-!
The odd-parity and Hamming checks (00_scope.md R11 to R14) and the address code (45_ttx_addressing.md R239). The bits
`popcount` counts are those `ones` sums. The Hamming facts rest on one number, the distance 4 between code bytes: a byte
within one bit of two of them would put these at most two bits apart.
-/

namespace Sys2Proof.Machine

/-! ### Counting one bits -/

theorem countP_eq_sum_toNat (p : Nat → Bool) (l : List Nat) : l.countP p = (l.map fun i => (p i).toNat).sum := by
  induction l with
  | nil => rfl
  | cons i l ih => cases hi : p i <;> simp [hi, ih, Nat.add_comm]

/-- The model's count of one bits is the count the statements write. -/
theorem popcount_eq_ones {w : Nat} (v : BitVec w) : popcount v = ones v := by
  simp only [popcount, ones, countP_eq_sum_toNat, ← BitVec.testBit_toNat, Nat.toNat_testBit]

theorem popcount_zero (w : Nat) : popcount (0#w) = 0 := by
  simp [popcount]

/-- The triangle inequality of the distance `popcount (a ^^^ b)`. -/
theorem popcount_xor_le {w : Nat} (a b c : BitVec w) : popcount (b ^^^ c) ≤ popcount (a ^^^ b) + popcount (a ^^^ c) := by
  simp only [popcount, countP_eq_sum_toNat, ← List.sum_map_add]
  refine List.sum_le_sum fun i _ => ?_
  simp only [BitVec.getLsbD_xor]
  cases a.getLsbD i <;> cases b.getLsbD i <;> cases c.getLsbD i <;> decide

/-! ### Odd parity (00_scope.md R12) -/

/-- `b & 0x7F` as a number. -/
theorem low7_eq_ofNat (b : Byte) : b.extractLsb' 0 7 = BitVec.ofNat 7 (b.toNat % 128) := by
  apply BitVec.eq_of_toNat_eq
  simp

/-! ### Hamming 8/4 (00_scope.md R13) -/

/-- The default table is read where `hammingDecode` wrote it. -/
theorem unham8_default (b : Byte) : unham8 defaultConfig b = hammingDecode b := by
  simp [unham8, defaultConfig, defaultUnham8]

theorem hammingCode_get (i : Nat) (hi : i < 16) : hammingCode[i] = ham8 (BitVec.ofNat 4 i) := by
  simp [ham8, Nat.mod_eq_of_lt hi]

/-- The code bytes are at least four bits apart. -/
theorem ham8_distance : ∀ m n : BitVec 4, m ≠ n → 4 ≤ popcount (ham8 m ^^^ ham8 n) := by
  decide +kernel

/-- At most one code byte is within one bit of a byte. -/
theorem ham8_near_unique {b : Byte} {m n : BitVec 4} (hm : popcount (b ^^^ ham8 m) ≤ 1)
    (hn : popcount (b ^^^ ham8 n) ≤ 1) : m = n := by
  by_contra hne
  have far := ham8_distance m n hne
  have near := popcount_xor_le b (ham8 m) (ham8 n)
  omega

/-- The first code byte the search meets within one bit is the only one. -/
theorem hammingDecode_eq_some_iff (b : Byte) (n : BitVec 4) :
    hammingDecode b = some n ↔ popcount (b ^^^ ham8 n) ≤ 1 := by
  simp only [hammingDecode, Option.map_eq_some_iff, List.findIdx?_eq_some_iff_getElem, Vector.length_toList,
    Vector.getElem_toList, decide_eq_true_eq]
  constructor
  · rintro ⟨i, ⟨hi, near, -⟩, rfl⟩
    rwa [hammingCode_get i hi] at near
  · intro near
    refine ⟨n.toNat, ⟨n.isLt, near, fun j hj nearj => ?_⟩, by simp⟩
    have hj16 : j < 16 := hj.trans n.isLt
    rw [hammingCode_get j hj16] at nearj
    have same := congrArg BitVec.toNat (ham8_near_unique nearj near)
    rw [BitVec.toNat_ofNat, Nat.mod_eq_of_lt hj16] at same
    omega

theorem unham8_default_eq_some_iff (b : Byte) (n : BitVec 4) :
    unham8 defaultConfig b = some n ↔ popcount (b ^^^ ham8 n) ≤ 1 := by
  rw [unham8_default, hammingDecode_eq_some_iff]

/-- A code byte decodes to its nibble. -/
@[simp] theorem unham8_default_ham8 (n : BitVec 4) : unham8 defaultConfig (ham8 n) = some n := by
  simp [unham8_default_eq_some_iff, popcount_zero]

/-- `H8` of R13 with its bytes as numbers. -/
theorem ham8_eq_ofNat : ∀ n : BitVec 4,
    ham8 n = BitVec.ofNat 8 ([0x15, 0x02, 0x49, 0x5E, 0x64, 0x73, 0x38, 0x2F,
      0xD0, 0xC7, 0x8C, 0x9B, 0xA1, 0xB6, 0xFD, 0xEA].getD n.toNat 0) := by
  decide

/-- Sixteen code bytes, each with the nine bytes within one bit of it. -/
theorem unham8_default_count :
    (List.range 256).countP (fun b => (unham8 defaultConfig (BitVec.ofNat 8 b)).isSome) = 144 := by
  simp only [unham8_default]
  decide +kernel

/-! ### Hamming 16/8 (00_scope.md R14) -/

/-- Two nibbles, the second the upper, as a number. -/
theorem nibbles_append (n0 n1 : BitVec 4) : n1 ++ n0 = BitVec.ofNat 8 (n0.toNat + 16 * n1.toNat) := by
  apply BitVec.eq_of_toNat_eq
  rw [BitVec.toNat_append, ← Nat.shiftLeft_add_eq_or_of_lt n0.isLt, Nat.shiftLeft_eq, BitVec.toNat_ofNat]
  omega

theorem unham16_eq_some {cfg : Config} {b0 b1 : Byte} {n0 n1 : BitVec 4} (h0 : unham8 cfg b0 = some n0)
    (h1 : unham8 cfg b1 = some n1) : unham16 cfg b0 b1 = some (BitVec.ofNat 8 (n0.toNat + 16 * n1.toNat)) := by
  simp only [unham16, h0, h1, nibbles_append]

theorem unham16_eq_none {cfg : Config} {b0 b1 : Byte} (h : unham8 cfg b0 = none ∨ unham8 cfg b1 = none) :
    unham16 cfg b0 b1 = none := by
  rcases h with h0 | h1
  · simp only [unham16, h0]
  · cases h0 : unham8 cfg b0 <;> simp only [unham16, h0, h1]

/-- The code bytes of the two nibbles of a byte decode to it. -/
theorem unham16_default_ham8 {a : Nat} (ha : a < 256) :
    unham16 defaultConfig (ham8 (BitVec.ofNat 4 (a % 16))) (ham8 (BitVec.ofNat 4 (a / 16))) =
      some (BitVec.ofNat 8 a) := by
  rw [unham16_eq_some (unham8_default_ham8 _) (unham8_default_ham8 _), BitVec.toNat_ofNat, BitVec.toNat_ofNat]
  congr 2
  omega

end Sys2Proof.Machine

namespace Sys2Proof

open Sys2Proof.Machine

/-! ### The statements -/

/-- Settles O23: the model's count of one bits is the statement's, and its low seven bits are the byte modulo 128. -/
theorem oddParityDecode : Obligations.OddParityDecode := by
  intro b
  rw [unpar8, popcount_eq_ones, low7_eq_ofNat]

/-- Settles O48, from the distance 4 of the Hamming 8/4 code and the join of two nibbles. -/
theorem hammingDecode : Obligations.HammingDecode := by
  refine ⟨fun b n => ?_, unham8_default_count, fun cfg b0 b1 => ⟨unham16_eq_none, fun n0 n1 => unham16_eq_some⟩,
    fun m n _ _ hn => unham16_default_ham8 (by omega)⟩
  rw [unham8_default_eq_some_iff, popcount_eq_ones, ham8_eq_ofNat]

end Sys2Proof
end

section
/-!
The registers across instructions and steps (10_state.md). Everything goes through `exec_effect`: what an effect does to
the fault status, and what it does to the label registers, is said once each. The result of an instruction is then shown
to commute with replacing the model's own fields, which it never reads.
-/

namespace Sys2Proof.Machine

/-! ### The fault status (10_state.md R34, 60_exceptions.md R302) -/

@[simp] theorem raiseFault_fault (line : Line) (c : Cause) (aux : BitVec 16) (s : State) :
    (raiseFault line c aux s).fault = 1 := rfl
@[simp] theorem raiseFault_faultCause (line : Line) (c : Cause) (aux : BitVec 16) (s : State) :
    (raiseFault line c aux s).faultCause = if s.fault = 0 then causeCode c else s.faultCause := rfl
@[simp] theorem raiseFault_rsp (line : Line) (c : Cause) (aux : BitVec 16) (s : State) :
    (raiseFault line c aux s).rsp = some (.error line c 0 aux) := rfl

/-- What an instruction can do to the fault status: PORST clears it, a hard fault raises it, nothing else writes it. -/
theorem Effect.faultStatus {i : Instr} {s t : State} (h : Effect s i t) :
    (i = .porst ∧ t.fault = 0 ∧ t.faultCause = 0) ∨
    (t.fault = s.fault ∧ t.faultCause = s.faultCause) ∨
    ∃ line cause aux, (cause = .sizeMismatch ∨ cause = .lineRange) ∧ t = raiseFault line cause aux s := by
  cases h with
  | powerReset => exact .inl ⟨rfl, rfl, rfl⟩
  | hardFault _ line cause aux hard => exact .inr (.inr ⟨line, cause, aux, hard, rfl⟩)
  | vps line p => exact .inr (.inl ⟨by simp, by simp⟩)
  | _ => exact .inr (.inl ⟨rfl, rfl⟩)

/-- Each clause of the invariant is the status before the fault or the code of a hard fault. -/
theorem faultInv_raiseFault {line : Line} {cause : Cause} {aux : BitVec 16} {s : State}
    (hard : cause = .sizeMismatch ∨ cause = .lineRange) (hs : s.faultInv) :
    (raiseFault line cause aux s).faultInv := by
  refine .inr ⟨raiseFault_fault .., ?_⟩
  rcases hs with ⟨clear, -⟩ | ⟨set, code⟩
  · rcases hard with rfl | rfl <;> simp [clear, causeCode]
  · simpa [set] using code

theorem Effect.faultInv {i : Instr} {s t : State} (h : Effect s i t) (hs : s.faultInv) : t.faultInv := by
  rcases h.faultStatus with ⟨-, hf, hc⟩ | ⟨hf, hc⟩ | ⟨line, cause, aux, hard, rfl⟩
  · exact .inl ⟨hf, hc⟩
  · simpa only [State.faultInv, hf, hc] using hs
  · exact faultInv_raiseFault hard hs

/-! ### The label registers (10_state.md R36, 42_vps.md R160 to R163) -/

theorem isPrintable_printable (c : Char7) : isPrintable (printable c) := by
  unfold printable
  split
  · assumption
  · decide

/-- What an instruction can do to the label registers: leave them, clear them, or take the label step of a packet. -/
theorem Effect.labelRegisters {i : Instr} {s t : State} (h : Effect s i t) :
    sameLabel s t ∨ sameLabel (clearSession s) t ∨
    ∃ flag ch, isPrintable ch ∧ sameLabel (labelStep flag ch s) t := by
  cases h with
  | vps line p => exact .inr (.inr ⟨_, _, isPrintable_printable _, rfl, rfl, rfl, rfl, rfl⟩)
  | sessionReset => exact .inr (.inl ⟨rfl, rfl, rfl, rfl, rfl⟩)
  | powerReset => exact .inr (.inl ⟨rfl, rfl, rfl, rfl, rfl⟩)
  | _ => exact .inl ⟨rfl, rfl, rfl, rfl, rfl⟩

/-- The part of the invariant that speaks of the label registers. -/
def State.labelsOk (s : State) : Prop := s.labelInv ∧ s.charInv

theorem inv_iff (s : State) : s.Inv ↔ s.faultInv ∧ s.labelsOk := Iff.rfl

theorem labelsOk_congr {s t : State} (h : sameLabel s t) : t.labelsOk ↔ s.labelsOk := by
  obtain ⟨hbuf, hpos, hlen, hprev, hplen⟩ := h
  simp only [State.labelsOk, State.labelInv, State.charInv, prevLabel, hbuf, hpos, hlen, hprev, hplen]

theorem mem_take_toList_iff {α : Type} {n k : Nat} {v : Vector α n} {c : α} :
    c ∈ v.toList.take k ↔ ∃ (i : Nat) (hi : i < n), i < k ∧ v[i] = c := by
  simp only [List.mem_take_iff_getElem, Vector.length_toList, Vector.getElem_toList, lt_min_iff]
  exact ⟨fun ⟨i, ⟨hk, hn⟩, e⟩ => ⟨i, hn, hk, e⟩, fun ⟨i, hn, hk, e⟩ => ⟨i, ⟨hk, hn⟩, e⟩⟩

theorem labelsOk_clearSession (s : State) : (clearSession s).labelsOk := by
  simp [State.labelsOk, State.labelInv, State.charInv, prevLabel]

/-- The flush moves the buffer and its length to the previous label together. -/
theorem labelsOk_labelFlush {s : State} (hs : s.labelsOk) : (labelFlush s).labelsOk := by
  obtain ⟨⟨hlen, -, -⟩, hbuf, -⟩ := hs
  exact ⟨⟨by simp, hlen, by simp⟩, by simp, hbuf⟩

/-- The length after an append, as a number: it saturates at 16. -/
theorem labelAppend_vpsLlen_toNat (ch : Char7) {s : State} (h : s.vpsLlen.toNat ≤ 16) :
    (labelAppend ch s).vpsLlen.toNat = min (s.vpsLlen.toNat + 1) 16 := by
  rw [labelAppend_vpsLlen]
  split <;> bv_omega

/-- The position of an append is the end of the buffer while it is not full, so below the new length stand the new
character and the characters that stood below the old one. -/
theorem labelsOk_labelAppend {ch : Char7} {s : State} (hch : isPrintable ch) (hs : s.labelsOk) :
    (labelAppend ch s).labelsOk := by
  obtain ⟨⟨hlen, hplen, hpos⟩, hbuf, hprev⟩ := hs
  have newLen := labelAppend_vpsLlen_toNat ch hlen
  refine ⟨⟨by omega, hplen, fun notFull => ?_⟩, fun c hc => ?_, hprev⟩
  · rw [newLen] at notFull ⊢
    rw [labelAppend_vpsLpos, BitVec.toNat_add, hpos (by omega)]
    simp
    omega
  · rw [newLen, labelAppend_vpsLbuf] at hc
    obtain ⟨i, hi, below, rfl⟩ := mem_take_toList_iff.mp hc
    by_cases written : s.vpsLpos.toNat = i
    · simpa [written] using hch
    · rw [Vector.getElem_set_ne _ _ written]
      exact hbuf _ (mem_take_toList_iff.mpr ⟨i, hi, by omega, rfl⟩)

theorem labelsOk_labelStep {flag : Bool} {ch : Char7} {s : State} (hch : isPrintable ch) (hs : s.labelsOk) :
    (labelStep flag ch s).labelsOk := by
  cases flag with
  | false => exact labelsOk_labelAppend hch hs
  | true => exact labelsOk_labelAppend hch (labelsOk_labelFlush hs)

theorem Effect.labelsOk {i : Instr} {s t : State} (h : Effect s i t) (hs : s.labelsOk) : t.labelsOk := by
  rcases h.labelRegisters with same | same | ⟨flag, ch, hch, same⟩
  · exact (labelsOk_congr same).mpr hs
  · exact (labelsOk_congr same).mpr (labelsOk_clearSession s)
  · exact (labelsOk_congr same).mpr (labelsOk_labelStep hch hs)

/-- Every instruction keeps the invariant, whatever its operands. -/
theorem exec_inv {i : Instr} {s t : State} (h : exec i s = .next t) (hs : s.Inv) : t.Inv :=
  have effect := exec_effect h
  (inv_iff t).mpr ⟨effect.faultInv hs.1, effect.labelsOk hs.2⟩

/-! ### The model's own fields (assumptions 2 and 4) -/

/-- The state `s` with the host's inputs, their index and the last outputs of `e`. -/
def State.withOwnFields (s e : State) : State :=
  { s with inputs := e.inputs, pc := e.pc, rsp := e.rsp, rdata := e.rdata }

/-- The state `s` with the host's inputs and their index of `e`; the outputs stay. -/
def State.withHost (s e : State) : State := { s with inputs := e.inputs, pc := e.pc }

@[simp] theorem withOwnFields_cfg (s e : State) : (s.withOwnFields e).cfg = s.cfg := rfl

/-- States with the same configuration and registers differ in the model's own fields only. -/
theorem eq_withOwnFields {s e : State} (hcfg : e.cfg = s.cfg) (h : sameRegisters s e) : e = s.withOwnFields e := by
  obtain ⟨hf, hc, hch, hbuf, hpos, hlen, hprev, hplen⟩ := h
  cases e
  simp_all [State.withOwnFields]

theorem sameRegisters_withHost (s e : State) : sameRegisters s (s.withHost e) :=
  ⟨rfl, rfl, rfl, rfl, rfl, rfl, rfl, rfl⟩

/-- The next state of an outcome, changed by `f`. -/
def mapNext (f : State → State) : Out → Out
  | .next t => .next (f t)
  | .fault r => .fault r
  | .refused r => .refused r

/-- An operation that reads none of the model's own fields: with other ones it gives the same outputs and registers, and
the host's fields pass through. -/
def ReadsRegistersOnly (f : State → Out) : Prop :=
  ∀ s e : State, f (s.withOwnFields e) = mapNext (·.withHost e) (f s)

/-- The line check of a decode operation, from its service. -/
theorem ReadsRegistersOnly.withLine {service : State → Out} (h : ReadsRegistersOnly service) (line : Line) :
    ReadsRegistersOnly fun s => withLine line s (service s) := by
  intro s e
  by_cases hl : line ≤ 1023#16
  · simpa only [withLine_of_le _ _ hl] using h s e
  · simp only [withLine_of_gt _ _ hl]
    rfl

/-! The interpreters, innermost first: they choose by the operands and the configuration alone. -/

theorem execCcPac_readsRegistersOnly (line : Line) (c1 c2 : Char7) : ReadsRegistersOnly (execCcPac line c1 c2) := by
  intro s e
  by_cases unassigned : pacRow s.cfg c1 c2 = 0 <;> simp only [execCcPac, withOwnFields_cfg, unassigned] <;> rfl

theorem runCcTable_readsRegistersOnly (line : Line) (c1 c2 : Char7) : ReadsRegistersOnly (runCcTable line c1 c2) := by
  intro s e
  unfold runCcTable
  split <;> (repeat' split) <;> rfl

theorem runCcPair_readsRegistersOnly (line : Line) (c1 c2 : Char7) : ReadsRegistersOnly (runCcPair line c1 c2) := by
  intro s e
  unfold runCcPair
  split; · rfl
  split; · rfl
  split; · rfl
  split
  · exact execCcPac_readsRegistersOnly line c1 c2 s e
  · exact runCcTable_readsRegistersOnly line c1 c2 s e

theorem runCaption_readsRegistersOnly (line : Line) (b0 b1 : Byte) : ReadsRegistersOnly (runCaption line b0 b1) := by
  intro s e
  unfold runCaption
  split
  · exact runCcPair_readsRegistersOnly line _ _ s e
  · rfl

/-- The label step and the previous label read after it use the label registers only. -/
theorem runVps_readsRegistersOnly (line : Line) (p : VpsPayload) : ReadsRegistersOnly (runVps line p) := by
  intro s e
  unfold runVps
  cases vpsFlag p <;> rfl

theorem runDatavideo_readsRegistersOnly (line : Line) (a : BitVec 8) (p : Payload) :
    ReadsRegistersOnly (runDatavideo line a p) := by
  intro s e
  simp only [runDatavideo, withOwnFields_cfg]
  split <;> rfl

theorem execIdlSpa_readsRegistersOnly (line : Line) (a : BitVec 8) (ft ial : BitVec 4) (p : Payload) :
    ReadsRegistersOnly (execIdlSpa line a ft ial p) := by
  intro s e
  simp only [execIdlSpa, withOwnFields_cfg]
  split <;> rfl

theorem execIdlFormatA_readsRegistersOnly (line : Line) (a : BitVec 8) (ft : BitVec 4) (p : Payload) :
    ReadsRegistersOnly (execIdlFormatA line a ft p) := by
  intro s e
  simp only [execIdlFormatA, withOwnFields_cfg]
  split
  · rfl
  · split
    · rfl
    · exact execIdlSpa_readsRegistersOnly line a ft _ p s e

theorem execIdlFormatB_readsRegistersOnly (line : Line) (a : BitVec 8) (ft : BitVec 4) (p : Payload) :
    ReadsRegistersOnly (execIdlFormatB line a ft p) := by
  intro s e
  simp only [execIdlFormatB, withOwnFields_cfg]
  split <;> rfl

theorem runFormatted_readsRegistersOnly (line : Line) (a : BitVec 8) (p : Payload) :
    ReadsRegistersOnly (runFormatted line a p) := by
  intro s e
  simp only [runFormatted, withOwnFields_cfg]
  split
  · rfl
  · split
    · exact execIdlFormatA_readsRegistersOnly line a _ p s e
    · split
      · exact execIdlFormatB_readsRegistersOnly line a _ p s e
      · rfl

theorem runIdl_readsRegistersOnly (line : Line) (a : BitVec 8) (p : Payload) :
    ReadsRegistersOnly (runIdl line a p) := by
  intro s e
  simp only [runIdl, withOwnFields_cfg]
  split; · rfl
  split; · exact runDatavideo_readsRegistersOnly line a p s e
  split; · exact runDatavideo_readsRegistersOnly line a p s e
  split; · exact runFormatted_readsRegistersOnly line a p s e
  split; · exact runFormatted_readsRegistersOnly line a p s e
  split; · rfl
  by_cases lbra : idlChannel a = 7 ∧ s.cfg.idlCh7Lbra = true <;> simp only [lbra] <;> rfl

theorem runTeletext_readsRegistersOnly (line : Line) (p : Payload) : ReadsRegistersOnly (runTeletext line p) := by
  intro s e
  simp only [runTeletext, withOwnFields_cfg]
  split
  · rfl
  · split; · rfl
    split
    · exact runIdl_readsRegistersOnly line _ p s e
    · rfl

/-- No instruction reads the model's own fields. The rows not named do not branch. -/
theorem exec_readsRegistersOnly (i : Instr) : ReadsRegistersOnly (exec i) := by
  cases i with
  | decTtx line p => exact (runTeletext_readsRegistersOnly line p).withLine line
  | decCc525 line b0 b1 => exact (runCaption_readsRegistersOnly line b0 b1).withLine line
  | decCc625 line b0 b1 => exact (runCaption_readsRegistersOnly line b0 b1).withLine line
  | decVps line p => exact (runVps_readsRegistersOnly line p).withLine line
  | decWss625 line b0 b1 =>
    exact ReadsRegistersOnly.withLine (service := fun s => .next (emit (.wss (wssRecord s.cfg line b0 b1)) s))
      (fun _ _ => rfl) line
  | decCpr1204 line b0 b1 b2 =>
    exact ReadsRegistersOnly.withLine (service := fun s => .next (emit (.wssCpr (cprRecord line b0 b1 b2)) s))
      (fun _ _ => rfl) line
  | ccParityOk line b0 b1 => exact runCcPair_readsRegistersOnly line _ _
  | ccPac line c1 c2 => exact execCcPac_readsRegistersOnly line c1 c2
  | ttxIdl line a p => exact runIdl_readsRegistersOnly line a p
  | idlDatavideo5or13 line a p => exact runDatavideo_readsRegistersOnly line a p
  | idlDatavideo6or14 line a p => exact runDatavideo_readsRegistersOnly line a p
  | idlFormatted8to11 line a p => exact runFormatted_readsRegistersOnly line a p
  | idlFormatted15 line a p => exact runFormatted_readsRegistersOnly line a p
  | idlFormatA line a ft p => exact execIdlFormatA_readsRegistersOnly line a ft p
  | idlFormatB line a ft p => exact execIdlFormatB_readsRegistersOnly line a ft p
  | idlSpa line a ft ial p => exact execIdlSpa_readsRegistersOnly line a ft ial p
  | _ => exact fun _ _ => rfl

end Sys2Proof.Machine

namespace Sys2Proof

open Sys2Proof.Machine

/-! ### The statements -/

/-- Settles O15: PORST apart, an effect leaves the fault status or raises a hard fault, which keeps the first cause. -/
theorem hardFaultIsSticky : Obligations.HardFaultIsSticky := by
  intro i s t h notPorst
  rcases (exec_effect h).faultStatus with ⟨isPorst, -⟩ | ⟨hf, hc⟩ | ⟨line, cause, aux, hard, rfl⟩
  · exact absurd isPorst notPorst
  · exact ⟨fun set => ⟨hf.trans set, hc⟩, fun clear => .inl ⟨hf.trans clear, hc⟩⟩
  · exact ⟨fun set => ⟨raiseFault_fault .., by simp [set]⟩,
      fun clear => .inr ⟨raiseFault_fault .., line, cause, aux, raiseFault_rsp .., hard, by simp [clear]⟩⟩

/-- Settles O18: the second state is the first with other fields of the model's own, which commute with `exec`. -/
theorem resultDependsOnRegisters : Obligations.ResultDependsOnRegisters := by
  intro i s s' t hcfg same h
  refine ⟨t.withHost s', ?_, sameRegisters_withHost t s', rfl, rfl⟩
  calc exec i s' = exec i (s.withOwnFields s') := congrArg (exec i) (eq_withOwnFields hcfg same)
    _ = mapNext (·.withHost s') (exec i s) := exec_readsRegistersOnly i s s'
    _ = .next (t.withHost s') := by rw [h]; rfl

/-- Settles O21: an idle step and the accepting of an operation write no register, and every instruction keeps the
invariant. -/
theorem stepKeepsTheInvariant : Obligations.StepKeepsTheInvariant := by
  intro s t hs h
  rcases step_next h with ⟨rest, rfl⟩ | ⟨w, i, left, -, ran⟩
  · exact hs
  · have accepted : (accept left s).Inv := hs
    exact exec_inv ran accepted

end Sys2Proof
end

section
/-!
What an instruction leaves as it was (20_memory.md R57) and what its repetition does (R58). The frame is read off
`exec_effect`, one lemma per group of registers. The repetition follows the instruction: a step that writes no register
repeats because it reads nothing else, and the few writes are of constants or of the operands; the latch of a hard fault
keeps its first cause.
-/

namespace Sys2Proof.Machine

/-! ### The frame of an instruction (20_memory.md R57, 60_exceptions.md R311) -/

theorem Effect.sameEnvironment {i : Instr} {s t : State} (h : Effect s i t) : sameEnvironment s t := by
  cases h with
  | vps line p => simp [Machine.sameEnvironment]
  | _ => exact ⟨rfl, rfl, rfl⟩

theorem Effect.ccCh_eq {i : Instr} {s t : State} (h : Effect s i t) (frame : ¬ writesChannel i) : t.ccCh = s.ccCh := by
  cases h with
  | command _ _ _ _ _ _ may => exact absurd may frame
  | vps line p => simp
  | sessionReset => exact absurd (.inl rfl) frame
  | powerReset => exact absurd (.inr (.inl rfl)) frame
  | _ => rfl

theorem Effect.sameLabel {i : Instr} {s t : State} (h : Effect s i t) (frame : ¬ writesLabel i) : sameLabel s t := by
  cases h with
  | vps line p => exact absurd (.inr (.inr ⟨line, p, rfl⟩)) frame
  | sessionReset => exact absurd (.inl rfl) frame
  | powerReset => exact absurd (.inr (.inl rfl)) frame
  | _ => exact ⟨rfl, rfl, rfl, rfl, rfl⟩

theorem Effect.faultStatus_eq {i : Instr} {s t : State} (h : Effect s i t) (frame : ¬ writesFault i) :
    t.fault = s.fault ∧ t.faultCause = s.faultCause := by
  cases h with
  | hardFault _ _ _ _ _ may => exact absurd may frame
  | vps line p => simp
  | powerReset => exact absurd (.inl rfl) frame
  | _ => exact ⟨rfl, rfl⟩

/-- The effects that write a session register emit a Cc or a VPS record, or none. -/
theorem Effect.sameSession_of_error {i : Instr} {s t : State} {line : Line} {cause : Cause} {site : BitVec 4}
    {aux : BitVec 16} (h : Effect s i t) (hr : t.rsp = some (.error line cause site aux)) : sameSession s t := by
  cases h with
  | command => cases hr
  | vps => cases hr
  | sessionReset => cases hr
  | powerReset => cases hr
  | _ => exact ⟨rfl, rfl, rfl, rfl, rfl, rfl⟩

/-! ### Repetition (20_memory.md R58) -/

/-- An operation that, from the state it left, gives this state again. -/
def Repeats (f : State → Out) : Prop := ∀ s t : State, f s = .next t → f t = .next t

/-- A fault already latched keeps its status, so the same hard fault again changes nothing. -/
theorem raiseFault_raiseFault (line : Line) (c : Cause) (aux : BitVec 16) (s : State) :
    raiseFault line c aux (raiseFault line c aux s) = raiseFault line c aux s := rfl

/-- An operation that reads the registers only, and emits a record without writing one, finds the same registers. -/
theorem ReadsRegistersOnly.repeats {f : State → Out} (reads : ReadsRegistersOnly f)
    (emits : ∀ {s t}, f s = .next t → EmitsOnly s t) : Repeats f := by
  intro s t h
  obtain ⟨r, -, rfl⟩ := emits h
  calc f (emit r s) = f (s.withOwnFields (emit r s)) := rfl
    _ = mapNext (·.withHost (emit r s)) (f s) := reads s (emit r s)
    _ = .next (emit r s) := by rw [h]; rfl

/-- The line check repeats with its service: its own outcome is a hard fault of the same line. -/
theorem Repeats.withLine {service : State → Out} (h : Repeats service) (line : Line) :
    Repeats fun s => withLine line s (service s) := by
  intro s t ran
  rcases withLine_next ran with ⟨inRange, served⟩ | ⟨above, rfl⟩
  · exact (withLine_of_le t _ inRange).trans (h s t served)
  · exact (withLine_of_gt _ _ above).trans (congrArg _ (raiseFault_raiseFault line .lineRange line s))

theorem execCcPac_repeats (line : Line) (c1 c2 : Char7) : Repeats (execCcPac line c1 c2) := by
  intro s t h
  by_cases unassigned : pacRow s.cfg c1 c2 = 0
  · simp only [execCcPac, unassigned, if_true] at h
    cases h
    exact if_pos unassigned
  · simp only [execCcPac, unassigned, if_false] at h
    cases h
    exact if_neg unassigned

/-- Each row of the table writes the operand's channel or none, and its record reads no register. -/
theorem runCcTable_repeats (line : Line) (c1 c2 : Char7) : Repeats (runCcTable line c1 c2) := by
  intro s t
  unfold runCcTable
  split <;> (repeat' split) <;> (intro h; cases h; rfl)

theorem runCcPair_repeats (line : Line) (c1 c2 : Char7) : Repeats (runCcPair line c1 c2) := by
  intro s t
  unfold runCcPair
  split; · intro h; cases h; rfl
  split; · intro h; cases h; rfl
  split; · intro h; cases h; rfl
  split
  · exact execCcPac_repeats line c1 c2 s t
  · exact runCcTable_repeats line c1 c2 s t

/-- Every instruction R58 speaks of. The rows not named choose nothing by the state: a record, a channel of the operand,
a fault, a reset or a readout. -/
theorem exec_repeats {i : Instr} (notVps : ∀ line p, i ≠ .decVps line p)
    (notCc : ∀ line b0 b1, i ≠ .decCc525 line b0 b1 ∧ i ≠ .decCc625 line b0 b1) : Repeats (exec i) := by
  have reads := exec_readsRegistersOnly i
  cases i with
  | decTtx line p => exact ((runTeletext_readsRegistersOnly line p).repeats runTeletext_next).withLine line
  | decCc525 line b0 b1 => exact absurd rfl (notCc line b0 b1).1
  | decCc625 line b0 b1 => exact absurd rfl (notCc line b0 b1).2
  | decVps line p => exact absurd rfl (notVps line p)
  | decWss625 line b0 b1 =>
    exact Repeats.withLine (service := fun s => .next (emit (.wss (wssRecord s.cfg line b0 b1)) s))
      (fun _ _ h => by cases h; rfl) line
  | decCpr1204 line b0 b1 b2 =>
    exact Repeats.withLine (service := fun s => .next (emit (.wssCpr (cprRecord line b0 b1 b2)) s))
      (fun _ _ h => by cases h; rfl) line
  | ccParityOk line b0 b1 => exact runCcPair_repeats line _ _
  | ccPac line c1 c2 => exact execCcPac_repeats line c1 c2
  | ttxIdl => exact reads.repeats runIdl_next
  | idlDatavideo5or13 => exact reads.repeats runDatavideo_next
  | idlDatavideo6or14 => exact reads.repeats runDatavideo_next
  | idlFormatted8to11 => exact reads.repeats runFormatted_next
  | idlFormatted15 => exact reads.repeats runFormatted_next
  | idlFormatA => exact reads.repeats execIdlFormatA_next
  | idlFormatB => exact reads.repeats execIdlFormatB_next
  | idlSpa => exact reads.repeats execIdlSpa_next
  | _ => exact fun _ _ h => by cases h; rfl

end Sys2Proof.Machine

namespace Sys2Proof

open Sys2Proof.Machine

/-- Settles O16: the frame of the instruction's effect, one group of registers at a time. -/
theorem registersWritten : Obligations.RegistersWritten := by
  intro i s t h
  have effect := exec_effect h
  exact ⟨effect.sameEnvironment, effect.ccCh_eq, effect.sameLabel, effect.faultStatus_eq,
    fun _ _ _ _ => effect.sameSession_of_error⟩

/-- Settles O17: the state left holds all that the instruction reads, or what the instruction would write again. -/
theorem repeatIsIdempotent : Obligations.RepeatIsIdempotent := by
  intro i s t h notVps notCc
  exact exec_repeats notVps notCc s t h

end Sys2Proof
end

section
/-!
The encoding (30_encoding.md). The decoder reads of a request its three fields and the bytes the length counts, and it
reads back every word the encoder writes; the words of the spec's examples are words of the encoder.
-/

namespace Sys2Proof

open Sys2Proof.Machine

/-! ### The fields of a request word as numbers (30_encoding.md R70) -/

theorem extractLsb'_toNat_eq_field {w : Nat} (v : BitVec w) {lo n hi : Nat} (h : hi + 1 = lo + n) :
    (v.extractLsb' lo n).toNat = field v hi lo := by
  have width : hi + 1 - lo = n := by omega
  rw [BitVec.extractLsb'_toNat, Nat.shiftRight_eq_div_pow, field, width]

theorem reqTag_toNat (w : BitVec 32) : (reqTag w).toNat = field w 3 0 := extractLsb'_toNat_eq_field w rfl

theorem reqLen_toNat (w : BitVec 32) : (reqLen w).toNat = field w 9 4 := extractLsb'_toNat_eq_field w rfl

theorem reqLine_toNat (w : BitVec 32) : (reqLine w).toNat = field w 31 16 := extractLsb'_toNat_eq_field w rfl

/-! ### The data bytes a request reads (20_memory.md R51) -/

/-- Two data buffers with the same first `n` bytes. -/
def SameBytesBelow (n : Nat) (d d' : Payload) : Prop := ∀ k : Fin 42, k.val < n → d[k.val] = d'[k.val]

theorem SameBytesBelow.get {n : Nat} {d d' : Payload} (same : SameBytesBelow n d d') (k : Nat) (h42 : k < 42)
    (hk : k < n) : d[k] = d'[k] :=
  same ⟨k, h42⟩ hk

theorem SameBytesBelow.eq {d d' : Payload} (same : SameBytesBelow 42 d d') : d = d' :=
  Vector.ext fun k hk => same.get k hk hk

theorem SameBytesBelow.vpsBytes_eq {d d' : Payload} (same : SameBytesBelow 13 d d') : vpsBytes d = vpsBytes d' := by
  simp [vpsBytes, same.get]

/-- A service row reads the bytes below the length its tag fixes, and no other row reads the data. -/
theorem decodeReq_congr {r r' : Request} (tag : reqTag r.word = reqTag r'.word) (len : reqLen r.word = reqLen r'.word)
    (line : reqLine r.word = reqLine r'.word) (same : SameBytesBelow (reqLen r'.word).toNat r.data r'.data) :
    decodeReq r = decodeReq r' := by
  simp only [decodeReq_eq, tag, len, line]
  split; · rfl
  split
  · next row => rw [row.2] at same; rw [same.eq]
  split
  · next row => rw [row.2] at same; simp [same.get]
  split
  · next row => rw [row.2] at same; simp [same.get]
  split
  · next row => rw [row.2] at same; rw [same.vpsBytes_eq]
  split
  · next row => rw [row.2] at same; simp [same.get]
  split
  · next row => rw [row.2] at same; simp [same.get]
  rfl

/-- Settles O5: the fields and the bytes below `LEN` are all that a row of a request reads. -/
theorem rsvdAndUnreadBytesIgnored : Obligations.RsvdAndUnreadBytesIgnored := by
  intro cfg r r' tag len line same
  simp only [← reqTag_toNat, ← reqLen_toNat, ← reqLine_toNat] at tag len line same
  have lenEq := BitVec.eq_of_toNat_eq len
  rw [lenEq] at same
  exact congrArg Except.ok
    (decodeReq_congr (BitVec.eq_of_toNat_eq tag) lenEq (BitVec.eq_of_toNat_eq line) same)

/-! ### Decoding what the encoder writes (30_encoding.md R92, R94) -/

end Sys2Proof

namespace Sys2Proof.Laws.DecodeEncode

/-- The rows of the opcode table, one law each. -/
theorem decode_encode : ∀ i : Instr, Statement i
  | .nop line => nop line
  | .decTtx line p => decTtx line p
  | .decCc525 line b0 b1 => decCc525 line b0 b1
  | .decCc625 line b0 b1 => decCc625 line b0 b1
  | .decVps line p => decVps line p
  | .decWss625 line b0 b1 => decWss625 line b0 b1
  | .decCpr1204 line b0 b1 b2 => decCpr1204 line b0 b1 b2
  | .nopRsv7 line => nopRsv7 line
  | .nopRsv8to15 line t => nopRsv8to15 line t
  | .reqSizeMismatch line tag len => reqSizeMismatch line tag len
  | .srst => srst
  | .rd raddr => rd raddr
  | .porst => porst
  | .ccParityError line b0 b1 => ccParityError line b0 b1
  | .ccParityOk line b0 b1 => ccParityOk line b0 b1
  | .ccNull line c1 c2 => ccNull line c1 c2
  | .ccText line c1 c2 => ccText line c1 c2
  | .ccInvalidC2 line c1 c2 => ccInvalidC2 line c1 c2
  | .ccPacUnassigned line c1 c2 => ccPacUnassigned line c1 c2
  | .ccPac line c1 c2 => ccPac line c1 c2
  | .ccBackground line c1 c2 => ccBackground line c1 c2
  | .ccMidrow line c1 c2 => ccMidrow line c1 c2
  | .ccSpecial line c1 c2 => ccSpecial line c1 c2
  | .ccExtended line c1 c2 => ccExtended line c1 c2
  | .ccControl line c1 c2 => ccControl line c1 c2
  | .ccReservedA76 line c1 c2 => ccReservedA76 line c1 c2
  | .ccTo1 line c1 c2 => ccTo1 line c1 c2
  | .ccTo2 line c1 c2 => ccTo2 line c1 c2
  | .ccTo3 line c1 c2 => ccTo3 line c1 c2
  | .ccBt line c1 c2 => ccBt line c1 c2
  | .ccFa line c1 c2 => ccFa line c1 c2
  | .ccFau line c1 c2 => ccFau line c1 c2
  | .ccUnknown line c1 c2 => ccUnknown line c1 c2
  | .ttxHammingError line b0 b1 => ttxHammingError line b0 b1
  | .ttx830 line p => ttx830 line p
  | .ttxIdl line a p => ttxIdl line a p
  | .ttx line a p => ttx line a p
  | .idlCh0 line a p => idlCh0 line a p
  | .idlDatavideo5or13 line a p => idlDatavideo5or13 line a p
  | .idlDatavideo6or14 line a p => idlDatavideo6or14 line a p
  | .idlFormatted8to11 line a p => idlFormatted8to11 line a p
  | .idlFormatted15 line a p => idlFormatted15 line a p
  | .idlLbra4or12 line a p => idlLbra4or12 line a p
  | .idlLbra7 line a p => idlLbra7 line a p
  | .idlUnclassified line a p => idlUnclassified line a p
  | .idlFormatA line a ft p => idlFormatA line a ft p
  | .idlFormatB line a ft p => idlFormatB line a ft p
  | .idlFtOther line a ft p => idlFtOther line a ft p
  | .idlSpaReserved line a ft ial p => idlSpaReserved line a ft ial p
  | .idlSpa line a ft ial p => idlSpa line a ft ial p

end Sys2Proof.Laws.DecodeEncode

namespace Sys2Proof

open Sys2Proof.Machine

/-- Settles O59, by the law of the instruction's row. -/
theorem decodeEncodeAgree : Obligations.DecodeEncodeAgree :=
  fun cfg i wf => Laws.DecodeEncode.decode_encode i cfg wf

/-- A word the encoder writes for a well-formed instruction decodes to it. -/
theorem decode_eq_ok_of_encode_eq {cfg : Config} {i : Instr} {w : Code} (written : encode i = w)
    (wf : WellFormed cfg i = true) : decode cfg w = .ok i :=
  written ▸ decodeEncodeAgree cfg i wf

/-- Settles O60: each of the words is what the encoder writes for the instruction, with operands in range. -/
theorem specWordsDecode : Obligations.SpecWordsDecode := by
  refine ⟨?_, ?_, ?_, ?_, ?_, ?_, ?_, ?_⟩ <;>
    exact decode_eq_ok_of_encode_eq (by decide +kernel) (by decide +kernel)

end Sys2Proof
end

section
/-!
The line of a request (30_encoding.md R73, 42_vps.md R172). Past the line check a line is an operand that is copied:
with another line each interpreter takes the same branch and leaves the same state, with the line of its record
replaced.
-/

namespace Sys2Proof.Machine

@[simp] theorem recordLine_withLine (line : Line) (r : Record) : recordLine (r.withLine line) = line := by
  cases r <;> rfl

/-- The state with another line in the record it holds. -/
def State.relined (line : Line) (t : State) : State := { t with rsp := t.rsp.map (Record.withLine line) }

@[simp] theorem relined_rsp (line : Line) (t : State) :
    (t.relined line).rsp = t.rsp.map (Record.withLine line) := rfl

/-- An operation on a line that only copies it into its record. -/
def CopiesLine (f : Line → State → Out) : Prop :=
  ∀ (line line' : Line) (s : State), f line' s = mapNext (State.relined line') (f line s)

/-- The line check passes the same service through on both lines. -/
theorem CopiesLine.withLine {service : Line → State → Out} (copies : CopiesLine service) {line line' : Line}
    (inRange : line ≤ 1023#16) (inRange' : line' ≤ 1023#16) (s : State) :
    withLine line' s (service line' s) = mapNext (State.relined line') (withLine line s (service line s)) := by
  rw [withLine_of_le _ _ inRange, withLine_of_le _ _ inRange']
  exact copies line line' s

/-! The interpreters, innermost first: none of them branches on the line. -/

theorem execCcPac_copiesLine (c1 c2 : Char7) : CopiesLine (execCcPac · c1 c2) := by
  intro line line' s
  simp only [execCcPac]
  split <;> rfl

theorem runCcTable_copiesLine (c1 c2 : Char7) : CopiesLine (runCcTable · c1 c2) := by
  intro line line' s
  simp only [runCcTable]
  split <;> (repeat' split) <;> rfl

theorem runCcPair_copiesLine (c1 c2 : Char7) : CopiesLine (runCcPair · c1 c2) := by
  intro line line' s
  simp only [runCcPair]
  split; · rfl
  split; · rfl
  split; · rfl
  split
  · exact execCcPac_copiesLine c1 c2 line line' s
  · exact runCcTable_copiesLine c1 c2 line line' s

theorem runCaption_copiesLine (b0 b1 : Byte) : CopiesLine (runCaption · b0 b1) := by
  intro line line' s
  simp only [runCaption]
  split
  · exact runCcPair_copiesLine _ _ line line' s
  · rfl

/-- The label step does not see the line (R172). -/
theorem runVps_copiesLine (p : VpsPayload) : CopiesLine (runVps · p) := fun _ _ _ => rfl

theorem wss_copiesLine (b0 b1 : Byte) :
    CopiesLine fun line s => .next (emit (.wss (wssRecord s.cfg line b0 b1)) s) := fun _ _ _ => rfl

theorem cpr_copiesLine (b0 b1 b2 : Byte) :
    CopiesLine fun line s => .next (emit (.wssCpr (cprRecord line b0 b1 b2)) s) := fun _ _ _ => rfl

theorem runDatavideo_copiesLine (a : BitVec 8) (p : Payload) : CopiesLine (runDatavideo · a p) := by
  intro line line' s
  simp only [runDatavideo]
  split <;> rfl

theorem execIdlSpa_copiesLine (a : BitVec 8) (ft ial : BitVec 4) (p : Payload) :
    CopiesLine (execIdlSpa · a ft ial p) := by
  intro line line' s
  simp only [execIdlSpa]
  split <;> rfl

theorem execIdlFormatA_copiesLine (a : BitVec 8) (ft : BitVec 4) (p : Payload) :
    CopiesLine (execIdlFormatA · a ft p) := by
  intro line line' s
  simp only [execIdlFormatA]
  split
  · rfl
  · split
    · rfl
    · exact execIdlSpa_copiesLine a ft _ p line line' s

theorem execIdlFormatB_copiesLine (a : BitVec 8) (ft : BitVec 4) (p : Payload) :
    CopiesLine (execIdlFormatB · a ft p) := by
  intro line line' s
  simp only [execIdlFormatB]
  split <;> rfl

theorem runFormatted_copiesLine (a : BitVec 8) (p : Payload) : CopiesLine (runFormatted · a p) := by
  intro line line' s
  simp only [runFormatted]
  split
  · rfl
  · split
    · exact execIdlFormatA_copiesLine a _ p line line' s
    · split
      · exact execIdlFormatB_copiesLine a _ p line line' s
      · rfl

theorem runIdl_copiesLine (a : BitVec 8) (p : Payload) : CopiesLine (runIdl · a p) := by
  intro line line' s
  simp only [runIdl]
  split; · rfl
  split; · exact runDatavideo_copiesLine a p line line' s
  split; · exact runDatavideo_copiesLine a p line line' s
  split; · exact runFormatted_copiesLine a p line line' s
  split; · exact runFormatted_copiesLine a p line line' s
  split; · rfl
  split <;> rfl

theorem runTeletext_copiesLine (p : Payload) : CopiesLine (runTeletext · p) := by
  intro line line' s
  simp only [runTeletext]
  split
  · rfl
  · split; · rfl
    split
    · exact runIdl_copiesLine _ p line line' s
    · rfl

/-- The six decode operations. -/
theorem exec_services_relined {line line' : Line} {p : Payload} {v : VpsPayload} {b0 b1 b2 : Byte} {k : Nat}
    {i i' : Instr} (inRange : line ≤ 1023#16) (inRange' : line' ≤ 1023#16)
    (hi : (services line p v b0 b1 b2)[k]? = some i) (hi' : (services line' p v b0 b1 b2)[k]? = some i') (s : State) :
    exec i' s = mapNext (State.relined line') (exec i s) :=
  match k, hi, hi' with
  | 0, rfl, rfl => (runTeletext_copiesLine p).withLine inRange inRange' s
  | 1, rfl, rfl => (runCaption_copiesLine b0 b1).withLine inRange inRange' s
  | 2, rfl, rfl => (runCaption_copiesLine b0 b1).withLine inRange inRange' s
  | 3, rfl, rfl => (runVps_copiesLine v).withLine inRange inRange' s
  | 4, rfl, rfl => (wss_copiesLine b0 b1).withLine inRange inRange' s
  | 5, rfl, rfl => (cpr_copiesLine b0 b1 b2).withLine inRange inRange' s

/-! ### The record of a decode operation -/

/-- Every instruction but the resets and the readout emits a record. -/
theorem Effect.emits {i : Instr} {s t : State} (h : Effect s i t) :
    (i = .srst ∨ i = .porst ∨ ∃ addr, i = .rd addr) ∨ ∃ r, t.rsp = some r := by
  cases h with
  | sessionReset => exact .inl (.inl rfl)
  | powerReset => exact .inl (.inr (.inl rfl))
  | readOut addr => exact .inl (.inr (.inr ⟨addr, rfl⟩))
  | _ => exact .inr ⟨_, rfl⟩

theorem exec_services_emits {line : Line} {p : Payload} {v : VpsPayload} {b0 b1 b2 : Byte} {i : Instr} {s t : State}
    (mem : i ∈ services line p v b0 b1 b2) (h : exec i s = .next t) : ∃ r, t.rsp = some r := by
  rcases (exec_effect h).emits with (rfl | rfl | ⟨addr, rfl⟩) | emitted
  · simp [services] at mem
  · simp [services] at mem
  · simp [services] at mem
  · exact emitted

end Sys2Proof.Machine

namespace Sys2Proof

open Sys2Proof.Machine

/-- Settles O6: replacing the line by itself changes nothing, so the record's line is the operation's. -/
theorem lineIsOnlyCopied : Obligations.LineIsOnlyCopied := by
  intro line line' p v b0 b1 b2 s t k i i' inRange inRange' hi hi' h
  have copied : ∀ {l : Line} {j : Instr}, l ≤ 1023#16 → (services l p v b0 b1 b2)[k]? = some j →
      exec j s = .next (t.relined l) := by
    intro l j hl hj
    rw [exec_services_relined inRange hl hi hj s, h]
    rfl
  obtain ⟨r, emitted⟩ := exec_services_emits (List.mem_of_getElem? hi) h
  have own : t = t.relined line := Host.Outcome.next.inj (h.symm.trans (copied inRange hi))
  refine ⟨?_, copied inRange' hi'⟩
  rw [own]
  simp [emitted]

end Sys2Proof
end

section
/-!
The ranges of the record's fields (30_encoding.md R80 to R86, 60_exceptions.md R301). Each part of a record has its
range by the arithmetic of its operand function; an interpreter answers legally because each of its branches emits a
record of such parts; and a request decodes only to an operation, to a NOP or to a mismatch of a service tag.
-/

namespace Sys2Proof.Machine

/-- An outcome whose record, if it gives one, is within the ranges of the spec. -/
def AnswersLegally (o : Out) : Prop := ∀ (t : State) (r : Record), o = .next t → t.rsp = some r → r.legal

theorem answersLegally_emit {r : Record} {s : State} (legal : r.legal) : AnswersLegally (.next (emit r s)) := by
  rintro _ _ ⟨⟩ ⟨⟩
  exact legal

theorem answersLegally_of_rsp_none {t : State} (noRecord : t.rsp = none) : AnswersLegally (.next t) := by
  rintro _ r ⟨⟩ emitted
  rw [noRecord] at emitted
  cases emitted

/-- The line check: its own answer is the LineRange record of a line above 1023. -/
theorem AnswersLegally.withLine {service : Out} (h : AnswersLegally service) (line : Line) (s : State) :
    AnswersLegally (withLine line s service) := by
  by_cases inRange : line ≤ 1023#16
  · rwa [withLine_of_le s service inRange]
  · rw [withLine_of_gt s service inRange]
    exact answersLegally_emit ⟨rfl, rfl, by bv_omega⟩

/-! ### Caption records (30_encoding.md R82) -/

theorem answersLegally_ccCommand {line : Line} {c1 c2 : Char7} {cmd : CcKind} {s : State} (legal : cmd.legal) :
    AnswersLegally (.next (ccCommand line c1 c2 cmd s)) :=
  answersLegally_emit legal

theorem answersLegally_ccUnrecognised (line : Line) (c1 c2 : Char7) (s : State) :
    AnswersLegally (.next (ccUnrecognised line c1 c2 s)) :=
  answersLegally_emit trivial

theorem answersLegally_control {line : Line} {c1 c2 : Char7} {mnem : BitVec 6} {f : Option (BitVec 1)} {s : State}
    (range : mnem.toNat ≤ 37) : AnswersLegally (.next (ccCommand line c1 c2 (.control mnem f) s)) :=
  answersLegally_ccCommand range

/-- The two families of sixteen mnemonics. -/
theorem controlMnemonic_le (n : BitVec 4) : (n.setWidth 6).toNat ≤ 37 ∧ (16 + n.setWidth 6).toNat ≤ 37 := by
  constructor <;> bv_omega

/-- A column is a multiple of four up to 28 (41_caption.md R133). -/
theorem pac_legal (c2 : Char7) {row : BitVec 4} (u : BitVec 1) (assigned : row ≠ 0) :
    (CcKind.pac row u (pacPosition c2)).legal := by
  refine ⟨assigned, ?_⟩
  unfold pacPosition
  split
  · next position col column =>
    split at column <;> cases column
    generalize ccAttr c2 = attr
    constructor <;> bv_omega
  · trivial

theorem execCcPac_answersLegally (line : Line) (c1 c2 : Char7) (s : State) :
    AnswersLegally (execCcPac line c1 c2 s) := by
  unfold execCcPac
  split
  · exact answersLegally_ccUnrecognised line c1 c2 s
  · next assigned => exact answersLegally_ccCommand (pac_legal c2 _ assigned)

theorem runCcTable_answersLegally (line : Line) (c1 c2 : Char7) (s : State) :
    AnswersLegally (runCcTable line c1 c2 s) := by
  have unknown := answersLegally_ccUnrecognised line c1 c2 s
  have control : AnswersLegally (execCcControl line c1 c2 s) := answersLegally_control (controlMnemonic_le _).1
  have background : AnswersLegally (execCcBackground line c1 c2 s) := answersLegally_control (controlMnemonic_le _).2
  have extended : AnswersLegally (execCcExtended line c1 c2 s) := answersLegally_ccCommand trivial
  unfold runCcTable
  split
  · split; exacts [background, unknown]
  · split <;> exact answersLegally_ccCommand trivial
  · exact extended
  · exact extended
  · split; exacts [control, unknown]
  · split; exacts [control, unknown]
  · exact unknown
  · repeat' split
    case isFalse => exact unknown
    all_goals exact answersLegally_control (by decide)

theorem runCcPair_answersLegally (line : Line) (c1 c2 : Char7) (s : State) :
    AnswersLegally (runCcPair line c1 c2 s) := by
  unfold runCcPair
  split; · exact answersLegally_emit trivial
  split; · exact answersLegally_emit trivial
  split; · exact answersLegally_ccUnrecognised line c1 c2 s
  split
  · exact execCcPac_answersLegally line c1 c2 s
  · exact runCcTable_answersLegally line c1 c2 s

/-- The error branch is taken when one of the bytes failed, so its `where` is not 0. -/
theorem runCaption_answersLegally (line : Line) (b0 b1 : Byte) (s : State) :
    AnswersLegally (runCaption line b0 b1 s) := by
  unfold runCaption
  split
  · exact runCcPair_answersLegally line _ _ s
  · next failed =>
    refine answersLegally_emit (show 1 ≤ BitVec.toNat _ ∧ BitVec.toNat _ ≤ 3 from ?_)
    cases h0 : unpar8 b0 <;> cases h1 : unpar8 b1
    case some.some => exact absurd h1 (failed _ _ h0)
    all_goals simp

/-! ### VPS, WSS and CPR1204 records (30_encoding.md R83) -/

theorem runVps_answersLegally (line : Line) (p : VpsPayload) (s : State) : AnswersLegally (runVps line p s) :=
  answersLegally_emit ⟨isPrintable_printable _, by simp [vpsRecord, prevLabel]⟩

theorem wssRecord_legal (cfg : Config) (line : Line) (b0 b1 : Byte) :
    (Record.wss (wssRecord cfg line b0 b1)).legal := by
  simp [Record.legal, wssRecord]

theorem cprRecord_legal (line : Line) (b0 b1 b2 : Byte) : (Record.wssCpr (cprRecord line b0 b1 b2)).legal := by
  simp [Record.legal, cprRecord]

/-! ### Teletext and IDL records (30_encoding.md R84, R85) -/

/-- The ranges of the address fields, and the channel by magazine and packet. -/
theorem address_ranges (a : BitVec 8) :
    1 ≤ (ttxMagazine a).toNat ∧ (ttxMagazine a).toNat ≤ 8 ∧
      (idlChannel a).toNat = (8 * (ttxPacket a).toNat + (ttxMagazine a).toNat % 8) % 16 := by
  revert a
  decide +kernel

theorem idlRecord_legal {a : BitVec 8} (line : Line) (p : Payload) {sub : IdlKind} (idl : 30 ≤ (ttxPacket a).toNat)
    (legal : sub.legal) : (idlRecord line a p sub).legal := by
  obtain ⟨low, high, channel⟩ := address_ranges a
  exact ⟨low, high, idl, channel, legal⟩

theorem answersLegally_idlHammingError (line : Line) (a : BitVec 8) {site : BitVec 4} (s : State)
    (range : 1 ≤ site.toNat ∧ site.toNat ≤ 6) : AnswersLegally (.next (idlHammingError line a site s)) :=
  answersLegally_emit range

/-- One nibble per byte. -/
theorem unhamAll_length {cfg : Config} {bs : List Byte} {ns : List (BitVec 4)} (h : unhamAll cfg bs = some ns) :
    ns.length = bs.length := by
  induction bs generalizing ns with
  | nil => cases h; rfl
  | cons b bs ih =>
    rw [unhamAll] at h
    split at h
    · next tail => cases h; simp [ih tail]
    · cases h

/-- A run of nibbles fits in as many hexadecimal digits. -/
theorem nibblesValue_lt (w : Nat) (ns : List (BitVec 4)) : (nibblesValue w ns).toNat < 16 ^ ns.length := by
  induction ns with
  | nil => simp [nibblesValue]
  | cons n ns ih =>
    have digits : 16 ^ (n :: ns).length = 2 ^ (4 * (ns.length + 1)) := by rw [pow_mul]; rfl
    have oneMore : 16 ^ (n :: ns).length = 16 * 16 ^ ns.length := by rw [List.length_cons, pow_succ']
    have pos : 0 < 16 ^ ns.length := by positivity
    have first : (n.setWidth w).toNat < 16 ^ (n :: ns).length := by
      have := (n.toNat_setWidth w).trans_le (Nat.mod_le _ _)
      omega
    have rest : (nibblesValue w ns <<< 4).toNat < 16 ^ (n :: ns).length := by
      have := (BitVec.toNat_shiftLeft (x := nibblesValue w ns) (n := 4)).trans_le (Nat.mod_le _ _)
      omega
    rw [digits] at first rest ⊢
    rw [nibblesValue, BitVec.toNat_or]
    exact Nat.or_lt_two_pow first rest

theorem idlSpaBytes_length (p : Payload) {sl : BitVec 3} (h : sl ≠ 7) : (idlSpaBytes p sl).length = sl.toNat := by
  simp only [idlSpaBytes, List.length_take, List.length_cons, List.length_nil]
  bv_omega

/-- The service packet address has one nibble per byte its length counts (46_idl.md R257). -/
theorem formatA_legal {cfg : Config} {p : Payload} (ft : BitVec 4) {ial : BitVec 4} {ns : List (BitVec 4)}
    (notReserved : idlSpaLength ial ≠ 7) (decoded : unhamAll cfg (idlSpaBytes p (idlSpaLength ial)) = some ns) :
    (IdlKind.formatA ft ial (idlSpaLength ial) (nibblesValue 24 ns)).legal := by
  have nibbles : ns.length = (idlSpaLength ial).toNat :=
    (unhamAll_length decoded).trans (idlSpaBytes_length p notReserved)
  refine ⟨by bv_omega, by simp [idlSpaLength], ?_⟩
  rw [← nibbles]
  exact nibblesValue_lt 24 ns

theorem formatB_legal (ft ai : BitVec 4) : (IdlKind.formatB ft (ft.extractLsb' 2 2) ai).legal := by
  show (ft.extractLsb' 2 2).toNat = ft.toNat / 4
  simp [Nat.shiftRight_eq_div_pow]
  omega

/-! The IDL interpreters, innermost first, for an address of packet 30 or 31. -/

section

variable {a : BitVec 8} (idl : 30 ≤ (ttxPacket a).toNat) (line : Line) (p : Payload) (s : State)

include idl

theorem answersLegally_idlRecord {sub : IdlKind} (legal : sub.legal) :
    AnswersLegally (.next (emit (idlRecord line a p sub) s)) :=
  answersLegally_emit (idlRecord_legal line p idl legal)

theorem runDatavideo_answersLegally : AnswersLegally (runDatavideo line a p s) := by
  unfold runDatavideo
  split
  · exact answersLegally_idlHammingError line a s (by decide)
  · exact answersLegally_idlRecord idl line p s trivial

theorem execIdlSpa_answersLegally (ft : BitVec 4) {ial : BitVec 4} (notReserved : idlSpaLength ial ≠ 7) :
    AnswersLegally (execIdlSpa line a ft ial p s) := by
  unfold execIdlSpa
  split
  · exact answersLegally_idlHammingError line a s (by decide)
  · next decoded => exact answersLegally_idlRecord idl line p s (formatA_legal ft notReserved decoded)

theorem execIdlFormatA_answersLegally (ft : BitVec 4) : AnswersLegally (execIdlFormatA line a ft p s) := by
  unfold execIdlFormatA
  split
  · exact answersLegally_idlHammingError line a s (by decide)
  · split
    · exact answersLegally_idlRecord idl line p s trivial
    · next notReserved => exact execIdlSpa_answersLegally idl line p s ft notReserved

theorem execIdlFormatB_answersLegally (ft : BitVec 4) : AnswersLegally (execIdlFormatB line a ft p s) := by
  unfold execIdlFormatB
  split
  · exact answersLegally_idlHammingError line a s (by decide)
  · exact answersLegally_idlRecord idl line p s (formatB_legal ft _)

theorem runFormatted_answersLegally : AnswersLegally (runFormatted line a p s) := by
  unfold runFormatted
  split
  · exact answersLegally_idlHammingError line a s (by decide)
  · split
    · exact execIdlFormatA_answersLegally idl line p s _
    · split
      · exact execIdlFormatB_answersLegally idl line p s _
      · exact answersLegally_idlRecord idl line p s trivial

theorem runIdl_answersLegally : AnswersLegally (runIdl line a p s) := by
  have datavideo := runDatavideo_answersLegally idl line p s
  have formatted := runFormatted_answersLegally idl line p s
  unfold runIdl
  extract_lets ch
  split; · exact answersLegally_idlRecord idl line p s trivial
  split; · exact datavideo
  split; · exact datavideo
  split; · exact formatted
  split; · exact formatted
  split; · exact answersLegally_idlRecord idl line p s trivial
  split <;> exact answersLegally_idlRecord idl line p s trivial

end

theorem runTeletext_answersLegally (line : Line) (p : Payload) (s : State) :
    AnswersLegally (runTeletext line p s) := by
  unfold runTeletext
  split
  · exact answersLegally_emit (show 1 ≤ (1#4).toNat ∧ (1#4).toNat ≤ 6 by decide)
  · next a _ =>
    split; · exact answersLegally_emit trivial
    split
    · next idl => exact runIdl_answersLegally (by bv_omega) line p s
    · next low =>
      obtain ⟨magLow, magHigh, -⟩ := address_ranges a
      exact answersLegally_emit ⟨magLow, magHigh, by bv_omega⟩

/-! ### Every operation the ports can present -/

/-- `aux` of a size mismatch is the tag above the length (40_dispatch.md R102). -/
theorem sizeMismatchAux_div (tag : BitVec 4) (len : BitVec 6) : (0#4 ++ tag ++ 0#2 ++ len).toNat / 256 = tag.toNat := by
  rw [BitVec.toNat_append, ← Nat.shiftLeft_add_eq_or_of_lt len.isLt, BitVec.toNat_append, BitVec.toNat_append]
  simp only [BitVec.toNat_ofNat, Nat.shiftLeft_eq, Nat.zero_mod, Nat.zero_mul, Nat.zero_or, Nat.or_zero]
  omega

/-- A request runs a service, answers NoOp, or names a service tag in its mismatch. -/
theorem decodeReq_answersLegally (r : Request) (s : State) : AnswersLegally (exec (decodeReq r) s) := by
  rw [decodeReq_eq]
  split; · exact answersLegally_emit trivial
  split; · exact (runTeletext_answersLegally _ _ s).withLine _ s
  split; · exact (runCaption_answersLegally _ _ _ s).withLine _ s
  split; · exact (runCaption_answersLegally _ _ _ s).withLine _ s
  split; · exact (runVps_answersLegally _ _ s).withLine _ s
  split; · exact (answersLegally_emit (wssRecord_legal ..)).withLine _ s
  split; · exact (answersLegally_emit (cprRecord_legal ..)).withLine _ s
  split; · exact answersLegally_emit trivial
  split; · exact answersLegally_emit trivial
  refine answersLegally_emit ⟨rfl, ?_⟩
  rw [sizeMismatchAux_div]
  bv_omega

theorem decodePin_answersLegally {porst srst : Bool} {raddr : Option (BitVec 8)} {i : Instr}
    (h : decodePin porst srst raddr = .ok i) (s : State) : AnswersLegally (exec i s) := by
  unfold decodePin at h
  split at h; · cases h; exact answersLegally_of_rsp_none rfl
  split at h; · cases h; exact answersLegally_of_rsp_none rfl
  split at h
  · cases h; exact answersLegally_of_rsp_none rfl
  · cases h

/-- The ports present request and control words only (10_state.md R32). -/
theorem takeOperation_word {p left : Ports} {w : Code} (h : takeOperation p = some (w, left)) :
    (∃ r, w = .req r) ∨ ∃ porst srst raddr, w = .pin porst srst raddr := by
  unfold takeOperation at h
  split at h; · cases h; exact .inr ⟨_, _, _, rfl⟩
  split at h; · cases h; exact .inr ⟨_, _, _, rfl⟩
  split at h; · cases h; exact .inl ⟨_, rfl⟩
  split at h
  · cases h; exact .inr ⟨_, _, _, rfl⟩
  · cases h

theorem decode_answersLegally {cfg : Config} {p left : Ports} {w : Code} {i : Instr}
    (taken : takeOperation p = some (w, left)) (decoded : decode cfg w = .ok i) (s : State) :
    AnswersLegally (exec i s) := by
  rcases takeOperation_word taken with ⟨r, rfl⟩ | ⟨porst, srst, raddr, rfl⟩
  · cases decoded
    exact decodeReq_answersLegally r s
  · exact decodePin_answersLegally decoded s

/-- What the step takes from the ports, when it takes an operation. -/
theorem takeOperation_of_fetch {s t : State} {w : Code} (h : fetch s = .operation w t) :
    ∃ p left, takeOperation p = some (w, left) := by
  unfold fetch at h
  split at h
  · cases h
  · split at h
    · cases h
    · next taken => cases h; exact ⟨_, _, taken⟩

theorem fetch_idle_rsp {s t : State} (h : fetch s = .idle t) : t.rsp = none := by
  unfold fetch at h
  split at h
  · cases h; rfl
  · split at h
    · cases h; rfl
    · cases h

theorem step_answersLegally (s : State) : AnswersLegally (step s) := by
  unfold step
  split
  · next idle => exact answersLegally_of_rsp_none (fetch_idle_rsp idle)
  · next operation =>
    obtain ⟨p, left, taken⟩ := takeOperation_of_fetch operation
    split
    · next decoded => exact decode_answersLegally taken decoded _
    · rintro _ _ ⟨⟩

end Sys2Proof.Machine

namespace Sys2Proof

open Sys2Proof.Machine

/-- Settles O22: whatever operation the step takes, its record has its ranges by construction. -/
theorem recordsAreLegal : Obligations.RecordsAreLegal :=
  fun s t r => step_answersLegally s t r

end Sys2Proof
end

section
/-!
The dispatcher's rows (40_dispatch.md R100 to R104): which operation a request's tag and length select, read off
`decodeReq_eq` with the fields of the word as numbers, and the two operations whose next state needs no branch.
-/

namespace Sys2Proof

open Sys2Proof.Machine

/-! ### The operation a tag selects (40_dispatch.md R101) -/

theorem ofNat_lineField (w : BitVec 32) : BitVec.ofNat 16 (field w 31 16) = reqLine w := by
  rw [← reqLine_toNat, BitVec.ofNat_toNat, BitVec.setWidth_eq]

/-- The low three bits of a tag, which NOP.RSV8_15 carries. -/
theorem ofNat_tagField (w : BitVec 32) : BitVec.ofNat 3 (field w 3 0) = (reqTag w).setWidth 3 := by
  rw [← reqTag_toNat, BitVec.ofNat_toNat]

theorem reqTag_eq_of_field {w : BitVec 32} {tag : BitVec 4} (h : field w 3 0 = tag.toNat) : reqTag w = tag :=
  BitVec.eq_of_toNat_eq ((reqTag_toNat w).trans h)

theorem reqLen_eq_of_field {w : BitVec 32} {len : BitVec 6} (h : field w 9 4 = len.toNat) : reqLen w = len :=
  BitVec.eq_of_toNat_eq ((reqLen_toNat w).trans h)

theorem vpsBytes_eq_ofFn (d : Payload) : vpsBytes d = Vector.ofFn fun i => d[i.val] := by
  apply Vector.ext
  intro i hi
  interval_cases i <;> simp [vpsBytes]

/-- Settles O4: with the tag and the length known, one condition of `decodeReq_eq` is true. -/
theorem requestSelectsService : Obligations.RequestSelectsService := by
  intro cfg r
  simp only [decode, Except.ok.injEq, ofNat_lineField, ofNat_tagField, ← vpsBytes_eq_ofFn, decodeReq_eq]
  refine ⟨fun tag => ?_, fun tag len => ?_, fun tag len => ?_, fun tag len => ?_, fun tag len => ?_,
    fun tag len => ?_, fun tag len => ?_, fun tag => ?_, fun tag => ?_⟩
  · simp [reqTag_eq_of_field (tag := 0) tag]
  · simp [reqTag_eq_of_field (tag := 1) tag, reqLen_eq_of_field (len := 42) len]
  · simp [reqTag_eq_of_field (tag := 2) tag, reqLen_eq_of_field (len := 2) len]
  · simp [reqTag_eq_of_field (tag := 3) tag, reqLen_eq_of_field (len := 2) len]
  · simp [reqTag_eq_of_field (tag := 4) tag, reqLen_eq_of_field (len := 13) len]
  · simp [reqTag_eq_of_field (tag := 5) tag, reqLen_eq_of_field (len := 2) len]
  · simp [reqTag_eq_of_field (tag := 6) tag, reqLen_eq_of_field (len := 3) len]
  · simp [reqTag_eq_of_field (tag := 7) tag]
  · rw [← reqTag_toNat] at tag
    have high : ∀ t < 8#4, reqTag r.word ≠ t := by bv_omega
    have reserved : 8 ≤ reqTag r.word := by bv_omega
    simpa [high] using reserved

/-- Settles O1: the reserved tags are those of the three NOP rows, which emit NoOp and write no register. -/
theorem nopEmitsNoOp : Obligations.NopEmitsNoOp := by
  have rows : ∀ (line : Line) (t : BitVec 3) (s : State),
      exec (.nop line) s = .next (emit (.noOp line) s) ∧ exec (.nopRsv7 line) s = .next (emit (.noOp line) s) ∧
        exec (.nopRsv8to15 line t) s = .next (emit (.noOp line) s) := fun _ _ _ => ⟨rfl, rfl, rfl⟩
  refine ⟨fun cfg r s reserved => ?_, rows⟩
  obtain ⟨tag0, -, -, -, -, -, -, tag7, tag8⟩ := requestSelectsService cfg r
  obtain zero | seven | high : field r.word 3 0 = 0 ∨ field r.word 3 0 = 7 ∨ 8 ≤ field r.word 3 0 := by omega
  · exact ⟨_, tag0 zero, rfl⟩
  · exact ⟨_, tag7 seven, rfl⟩
  · exact ⟨_, tag8 high, rfl⟩

/-- Settles O8: SRST does not branch, so its next state is `clearSession` written out. -/
theorem srstResult : Obligations.SrstResult := fun _ => rfl

/-! ### The readout map (10_state.md R38) -/

/-- A register narrower than a byte reads as its number. -/
theorem zero_append_eq_ofNat (n : Nat) {w : Nat} (v : BitVec w) : 0#n ++ v = BitVec.ofNat (n + w) v.toNat := by
  apply BitVec.eq_of_toNat_eq
  have lt : v.toNat < 2 ^ (n + w) := v.isLt.trans_le (Nat.pow_le_pow_right two_pos (Nat.le_add_left w n))
  simp [BitVec.toNat_append, Nat.mod_eq_of_lt lt]

/-- STATUS: the cause in the high nibble, the fault in bit 0. -/
theorem status_eq_ofNat (cause : BitVec 4) (fault : BitVec 1) :
    cause ++ 0#3 ++ fault = BitVec.ofNat 8 (fault.toNat + 16 * cause.toNat) := by
  revert cause fault
  decide

theorem highNibble_eq_iff (addr : BitVec 8) (n : BitVec 4) :
    addr.extractLsb' 4 4 = n ↔ 16 * n.toNat ≤ addr.toNat ∧ addr.toNat < 16 * n.toNat + 16 := by
  rw [← BitVec.toNat_inj, BitVec.extractLsb'_toNat, Nat.shiftRight_eq_div_pow]
  omega

/-- The character a label address reads: the low nibble is the index in the buffer. -/
theorem labelByte_eq_ofNat (buf : Vector Char7 16) {addr : BitVec 8} {n : BitVec 4}
    (h : addr.extractLsb' 4 4 = n) :
    0#1 ++ buf[(addr.extractLsb' 0 4).toNat]'((addr.extractLsb' 0 4).isLt) =
      BitVec.ofNat 8 (buf.toList.getD (addr.toNat - 16 * n.toNat) 0).toNat := by
  have index : (addr.extractLsb' 0 4).toNat = addr.toNat - 16 * n.toNat := by
    have range := (highNibble_eq_iff addr n).mp h
    rw [BitVec.extractLsb'_toNat, Nat.shiftRight_zero]
    omega
  have lt : addr.toNat - 16 * n.toNat < 16 := index ▸ (addr.extractLsb' 0 4).isLt
  simp only [zero_append_eq_ofNat, index]
  simp [List.getD, lt]

theorem readout_eq_ofNat (s : State) (addr : BitVec 8) :
    readout s addr = BitVec.ofNat 8
      (if addr.toNat = 0 then s.fault.toNat + 16 * s.faultCause.toNat
       else if addr.toNat = 1 then s.ccCh.toNat
       else if addr.toNat = 2 then s.vpsLpos.toNat
       else if addr.toNat = 3 then s.vpsLlen.toNat
       else if addr.toNat = 4 then s.vpsPlen.toNat
       else if 0x10 ≤ addr.toNat ∧ addr.toNat < 0x20 then (s.vpsLbuf.toList.getD (addr.toNat - 0x10) 0).toNat
       else if 0x20 ≤ addr.toNat ∧ addr.toNat < 0x30 then (s.vpsPrev.toList.getD (addr.toNat - 0x20) 0).toNat
       else 0) := by
  have toNatEq : ∀ b : BitVec 8, addr = b ↔ addr.toNat = b.toNat := fun b => BitVec.toNat_inj.symm
  have lbuf : addr.extractLsb' 4 4 = 1#4 ↔ 0x10 ≤ addr.toNat ∧ addr.toNat < 0x20 := highNibble_eq_iff addr 1
  have prev : addr.extractLsb' 4 4 = 2#4 ↔ 0x20 ≤ addr.toNat ∧ addr.toNat < 0x30 := highNibble_eq_iff addr 2
  unfold readout
  simp only [apply_ite (BitVec.ofNat 8), ← lbuf, ← prev]
  refine if_congr (toNatEq 0) (status_eq_ofNat ..) ?_
  refine if_congr (toNatEq 1) (zero_append_eq_ofNat ..) ?_
  refine if_congr (toNatEq 2) (zero_append_eq_ofNat ..) ?_
  refine if_congr (toNatEq 3) (zero_append_eq_ofNat ..) ?_
  refine if_congr (toNatEq 4) (zero_append_eq_ofNat ..) ?_
  split
  · next label => exact labelByte_eq_ofNat s.vpsLbuf label
  · split
    · next label => exact labelByte_eq_ofNat s.vpsPrev label
    · rfl

/-- Settles O10: a readout answers the byte of the map and writes the outputs only. -/
theorem readoutResult : Obligations.ReadoutResult := by
  intro addr s
  rw [← readout_eq_ofNat]
  rfl

end Sys2Proof
end

section
/-!
What the services answer (40_dispatch.md R114) and the totality of the block (R100). One predicate says that a service
runs to a next state with a record of its own and the fault status as it was; each interpreter has it because each of
its branches emits such a record. Totality of every instruction follows from it.
-/

namespace Sys2Proof.Machine

/-! ### An answer of a service -/

/-- The outcome is a next state with a record of the kind `answer` describes, no readout data, and the fault status
of `s`. -/
def Serves (s : State) (answer : Record → Prop) (o : Out) : Prop :=
  ∃ t r, o = .next t ∧ t.rsp = some r ∧ answer r ∧ t.fault = s.fault ∧ t.faultCause = s.faultCause ∧ t.rdata = none

theorem Serves.record {s : State} {answer : Record → Prop} {o : Out} (h : Serves s answer o) :
    ∃ t r, o = .next t ∧ t.rsp = some r ∧ answer r := by
  obtain ⟨t, r, next, emitted, kind, -⟩ := h
  exact ⟨t, r, next, emitted, kind⟩

theorem Serves.noFault {s : State} {answer : Record → Prop} {o : Out} (h : Serves s answer o) :
    ∃ t, o = .next t ∧ t.fault = s.fault ∧ t.faultCause = s.faultCause ∧ t.rdata = none := by
  obtain ⟨t, r, next, -, -, status⟩ := h
  exact ⟨t, next, status⟩

theorem Serves.mono {s : State} {answer answer' : Record → Prop} {o : Out} (h : Serves s answer o)
    (weaker : ∀ r, answer r → answer' r) : Serves s answer' o := by
  obtain ⟨t, r, next, emitted, kind, status⟩ := h
  exact ⟨t, r, next, emitted, weaker r kind, status⟩

/-- A record emitted from a state with the same fault status. -/
theorem serves_emit {s u : State} {answer : Record → Prop} {r : Record} (kind : answer r)
    (fault : u.fault = s.fault := by rfl) (cause : u.faultCause = s.faultCause := by rfl) :
    Serves s answer (.next (emit r u)) :=
  ⟨emit r u, r, rfl, rfl, kind, fault, cause, rfl⟩

/-- A record of the service's kind, or the Error record of the service's own check. -/
def kindOrError (kind : BitVec 4) (line : Line) (cause : Cause) (r : Record) : Prop :=
  recordKind r = kind ∨ ∃ site aux, r = .error line cause site aux

/-- What the two caption operations answer: Cc or a ParityError. -/
abbrev captionAnswer (line : Line) : Record → Prop := kindOrError 1 line .parityError

/-- What the IDL interpreter answers: Idl or a HammingError. -/
abbrev idlAnswer (line : Line) : Record → Prop := kindOrError 7 line .hammingError

/-- What DEC.TTX answers: Ttx, Ttx830, Idl or a HammingError. -/
def teletextAnswer (line : Line) (r : Record) : Prop :=
  recordKind r = 5 ∨ recordKind r = 6 ∨ idlAnswer line r

/-! ### Captions (41_caption.md R120, R129) -/

theorem execCcPac_serves (line : Line) (c1 c2 : Char7) (s : State) :
    Serves s (recordKind · = 1) (execCcPac line c1 c2 s) := by
  unfold execCcPac
  split <;> exact serves_emit rfl

theorem runCcTable_serves (line : Line) (c1 c2 : Char7) (s : State) :
    Serves s (recordKind · = 1) (runCcTable line c1 c2 s) := by
  unfold runCcTable
  split <;> (repeat' split) <;> exact serves_emit rfl

theorem runCcPair_serves (line : Line) (c1 c2 : Char7) (s : State) :
    Serves s (recordKind · = 1) (runCcPair line c1 c2 s) := by
  unfold runCcPair
  split; · exact serves_emit rfl
  split; · exact serves_emit rfl
  split; · exact serves_emit rfl
  split
  · exact execCcPac_serves line c1 c2 s
  · exact runCcTable_serves line c1 c2 s

theorem runCaption_serves (line : Line) (b0 b1 : Byte) (s : State) :
    Serves s (captionAnswer line) (runCaption line b0 b1 s) := by
  unfold runCaption
  split
  · exact (runCcPair_serves line _ _ s).mono fun _ => .inl
  · exact serves_emit (.inr ⟨_, _, rfl⟩)

/-! ### VPS, WSS and CPR1204 -/

/-- The label step does not touch the fault status. -/
theorem runVps_serves (line : Line) (p : VpsPayload) (s : State) : Serves s (recordKind · = 2) (runVps line p s) :=
  serves_emit rfl (by simp) (by simp)

/-! ### Teletext and IDL (45_ttx_addressing.md R230, 46_idl.md R250) -/

section

variable (line : Line) (a : BitVec 8) (p : Payload) (s : State)

theorem serves_idlRecord (sub : IdlKind) :
    Serves s (idlAnswer line) (.next (emit (idlRecord line a p sub) s)) :=
  serves_emit (.inl rfl)

theorem serves_idlHammingError (site : BitVec 4) :
    Serves s (idlAnswer line) (.next (idlHammingError line a site s)) :=
  serves_emit (.inr ⟨_, _, rfl⟩)

theorem runDatavideo_serves : Serves s (idlAnswer line) (runDatavideo line a p s) := by
  unfold runDatavideo
  split
  · exact serves_idlHammingError line a s _
  · exact serves_idlRecord line a p s _

theorem execIdlSpa_serves (ft ial : BitVec 4) : Serves s (idlAnswer line) (execIdlSpa line a ft ial p s) := by
  unfold execIdlSpa
  split
  · exact serves_idlHammingError line a s _
  · exact serves_idlRecord line a p s _

theorem execIdlFormatA_serves (ft : BitVec 4) : Serves s (idlAnswer line) (execIdlFormatA line a ft p s) := by
  unfold execIdlFormatA
  split
  · exact serves_idlHammingError line a s _
  · split
    · exact serves_idlRecord line a p s _
    · exact execIdlSpa_serves line a p s ft _

theorem execIdlFormatB_serves (ft : BitVec 4) : Serves s (idlAnswer line) (execIdlFormatB line a ft p s) := by
  unfold execIdlFormatB
  split
  · exact serves_idlHammingError line a s _
  · exact serves_idlRecord line a p s _

theorem runFormatted_serves : Serves s (idlAnswer line) (runFormatted line a p s) := by
  unfold runFormatted
  split
  · exact serves_idlHammingError line a s _
  · split
    · exact execIdlFormatA_serves line a p s _
    · split
      · exact execIdlFormatB_serves line a p s _
      · exact serves_idlRecord line a p s _

theorem runIdl_serves : Serves s (idlAnswer line) (runIdl line a p s) := by
  unfold runIdl
  extract_lets ch
  split; · exact serves_idlRecord line a p s _
  split; · exact runDatavideo_serves line a p s
  split; · exact runDatavideo_serves line a p s
  split; · exact runFormatted_serves line a p s
  split; · exact runFormatted_serves line a p s
  split; · exact serves_idlRecord line a p s _
  split <;> exact serves_idlRecord line a p s _

theorem runTeletext_serves : Serves s (teletextAnswer line) (runTeletext line p s) := by
  unfold runTeletext
  split
  · exact serves_emit (.inr (.inr (.inr ⟨_, _, rfl⟩)))
  · split; · exact serves_emit (.inr (.inl rfl))
    split
    · exact (runIdl_serves line _ p s).mono fun _ h => .inr (.inr h)
    · exact serves_emit (.inl rfl)

end

/-! ### Every instruction (40_dispatch.md R100) -/

theorem Serves.total {s : State} {answer : Record → Prop} {o : Out} (h : Serves s answer o) : ∃ t, o = .next t := by
  obtain ⟨t, -, next, -⟩ := h
  exact ⟨t, next⟩

/-- A line out of range gives a next state too: the LineRange fault is a status, not a trap. -/
theorem withLine_total {service : Out} (h : ∃ t, service = .next t) (line : Line) (s : State) :
    ∃ t, withLine line s service = .next t := by
  by_cases inRange : line ≤ 1023#16
  · rwa [withLine_of_le s service inRange]
  · exact ⟨_, withLine_of_gt s service inRange⟩

/-- The rows not named do not branch. -/
theorem exec_total (i : Instr) (s : State) : ∃ t, exec i s = .next t := by
  cases i with
  | decTtx line p => exact withLine_total (runTeletext_serves line p s).total line s
  | decCc525 line b0 b1 => exact withLine_total (runCaption_serves line b0 b1 s).total line s
  | decCc625 line b0 b1 => exact withLine_total (runCaption_serves line b0 b1 s).total line s
  | decVps line v => exact withLine_total ⟨_, rfl⟩ line s
  | decWss625 line b0 b1 => exact withLine_total ⟨_, rfl⟩ line s
  | decCpr1204 line b0 b1 b2 => exact withLine_total ⟨_, rfl⟩ line s
  | ccParityOk line b0 b1 => exact (runCcPair_serves line _ _ s).total
  | ccPac line c1 c2 => exact (execCcPac_serves line c1 c2 s).total
  | ttxIdl line a p => exact (runIdl_serves line a p s).total
  | idlDatavideo5or13 line a p => exact (runDatavideo_serves line a p s).total
  | idlDatavideo6or14 line a p => exact (runDatavideo_serves line a p s).total
  | idlFormatted8to11 line a p => exact (runFormatted_serves line a p s).total
  | idlFormatted15 line a p => exact (runFormatted_serves line a p s).total
  | idlFormatA line a ft p => exact (execIdlFormatA_serves line a p s ft).total
  | idlFormatB line a ft p => exact (execIdlFormatB_serves line a p s ft).total
  | idlSpa line a ft ial p => exact (execIdlSpa_serves line a p s ft ial).total
  | _ => exact ⟨_, rfl⟩

end Sys2Proof.Machine

namespace Sys2Proof

open Sys2Proof.Machine

/-- Settles O7: on a line in range each operation is its service, which answers with a record of its own. -/
theorem serviceRecord : Obligations.ServiceRecord := by
  intro line p v b0 b1 b2 s range
  have inRange : line ≤ 1023#16 := range
  have served : ∀ {answer : Record → Prop} {service : Out}, Serves s answer service →
      Serves s answer (withLine line s service) := fun {_ service} h => (withLine_of_le s service inRange).symm ▸ h
  have ttx : Serves s (teletextAnswer line) (exec (.decTtx line p) s) := served (runTeletext_serves line p s)
  have cc525 : Serves s (captionAnswer line) (exec (.decCc525 line b0 b1) s) :=
    served (runCaption_serves line b0 b1 s)
  have cc625 : Serves s (captionAnswer line) (exec (.decCc625 line b0 b1) s) :=
    served (runCaption_serves line b0 b1 s)
  have vps : Serves s (recordKind · = 2) (exec (.decVps line v) s) := served (runVps_serves line v s)
  have wss : Serves s (recordKind · = 3) (exec (.decWss625 line b0 b1) s) := served (serves_emit rfl)
  have cpr : Serves s (recordKind · = 4) (exec (.decCpr1204 line b0 b1 b2) s) := served (serves_emit rfl)
  refine ⟨?_, ttx.record, cc525.record, cc625.record, vps.record, wss.record, cpr.record⟩
  simp only [services, List.forall_mem_cons]
  exact ⟨ttx.noFault, cc525.noFault, cc625.noFault, vps.noFault, wss.noFault, cpr.noFault, List.forall_mem_nil _⟩

end Sys2Proof
end

section
/-!
The step and the host's inputs (40_dispatch.md R115, 10_state.md R31). A step is one equation: the operation taken from
the presentation, run on the state after it is accepted. Accepting an operation changes the host's fields only, and no
instruction reads them, so steps on one presentation are the instructions run one after the other.
-/

namespace Sys2Proof.Machine

/-! ### One step -/

theorem step_of_takeOperation {p left : Ports} {rest : List Ports} {s : State} {w : Code} {i : Instr}
    (presented : s.inputs = p :: rest) (taken : takeOperation p = some (w, left)) (decoded : decode s.cfg w = .ok i) :
    step s = exec i (accept (inputsAfter left rest) s) := by
  simp [step, fetch, presented, taken, decoded]

theorem step_of_nothingPresented {p : Ports} {rest : List Ports} {s : State} (presented : s.inputs = p :: rest)
    (nothing : takeOperation p = none) : step s = .next (idleStep rest s) := by
  simp [step, fetch, presented, nothing]

theorem step_of_inputs_nil {s : State} (nothing : s.inputs = []) : step s = .next (idleStep [] s) := by
  simp [step, fetch, nothing]

/-- Every word the step takes from the ports is an operation (30_encoding.md R91). -/
theorem decode_takeOperation {p left : Ports} {w : Code} (taken : takeOperation p = some (w, left)) (cfg : Config) :
    ∃ i, decode cfg w = .ok i := by
  unfold takeOperation at taken
  split at taken; · cases taken; exact ⟨.porst, rfl⟩
  split at taken; · cases taken; exact ⟨.srst, rfl⟩
  split at taken
  · next r _ => cases taken; exact ⟨decodeReq r, rfl⟩
  split at taken
  · next addr _ => cases taken; exact ⟨.rd addr, rfl⟩
  · cases taken

theorem step_total (s : State) : ∃ t, step s = .next t := by
  cases presented : s.inputs with
  | nil => exact ⟨_, step_of_inputs_nil presented⟩
  | cons p rest =>
    cases taken : takeOperation p with
    | none => exact ⟨_, step_of_nothingPresented presented taken⟩
    | some operation =>
      obtain ⟨i, decoded⟩ := decode_takeOperation taken s.cfg
      rw [step_of_takeOperation presented taken decoded]
      exact exec_total i _

/-- A step on a presented operation: the instruction's next state, with the rest still presented and the index
advanced. -/
theorem step_presented {p left : Ports} {rest : List Ports} {s : State} {w : Code} {i : Instr}
    (presented : s.inputs = p :: rest) (taken : takeOperation p = some (w, left)) (decoded : decode s.cfg w = .ok i) :
    ∃ t, step s = .next t ∧ exec i (accept (inputsAfter left rest) s) = .next t ∧
      t.cfg = s.cfg ∧ t.inputs = inputsAfter left rest ∧ t.pc = s.pc + 1 := by
  obtain ⟨t, ran⟩ := exec_total i (accept (inputsAfter left rest) s)
  exact ⟨t, (step_of_takeOperation presented taken decoded).trans ran, ran, (exec_effect ran).sameEnvironment⟩

/-! ### Runs on other host fields -/

/-- An instruction run on an accepted operation, run with any other host's inputs and index. -/
theorem exec_withHost_of_accept {i : Instr} {l : List Ports} {s t : State} (ran : exec i (accept l s) = .next t)
    (e : State) : exec i (s.withHost e) = .next (t.withHost e) :=
  calc exec i (s.withHost e) = exec i ((accept l s).withOwnFields { e with rsp := s.rsp, rdata := s.rdata }) := rfl
    _ = mapNext (·.withHost { e with rsp := s.rsp, rdata := s.rdata }) (exec i (accept l s)) :=
      exec_readsRegistersOnly i _ _
    _ = .next (t.withHost e) := by rw [ran]; rfl

theorem eq_withHost {t e : State} (inputs : t.inputs = e.inputs) (pc : t.pc = e.pc) : t = t.withHost e := by
  simp only [State.withHost, ← inputs, ← pc]

theorem runAll_cons {i : Instr} {s t : State} (ran : exec i s = .next t) (is : List Instr) :
    runAll (i :: is) s = runAll is t := by
  simp [runAll, ran]

end Sys2Proof.Machine

namespace Sys2Proof

open Sys2Proof.Machine

/-! ### The statements -/

/-- Settles O14: no arm of `exec` refuses, and the step takes no word that is no operation. -/
theorem stepTotal : Obligations.StepTotal := ⟨exec_total, step_total⟩

/-- Settles O11: in each clause `takeOperation` takes the named input; after a readout nothing is left. -/
theorem stepRunsPresented : Obligations.StepRunsPresented := by
  intro p rest s presented
  refine ⟨fun porst => ?_, fun porst srst => ?_, fun r i porst srst req decoded => ?_,
    fun addr porst srst req raddr => ?_⟩
  · exact step_of_takeOperation (w := .pin true false none) presented (by simp [takeOperation, porst]) rfl
  · exact step_of_takeOperation (w := .pin false true none) presented (by simp [takeOperation, porst, srst]) rfl
  · exact step_of_takeOperation presented (by simp [takeOperation, porst, srst, req]) decoded
  · have taken : takeOperation p = some (.pin false false (some addr), Ports.idle) := by
      simp [takeOperation, porst, srst, req, raddr, Ports.idle]
    exact step_of_takeOperation presented taken rfl

/-- Settles O13: each of the four steps takes the next input of the presentation, and the instruction it runs, run with
the host's fields of the end, gives the same registers and outputs. -/
theorem simultaneousInputs : Obligations.SimultaneousInputs := by
  intro r i addr rest s presented decoded
  obtain ⟨t1, step1, ran1, cfg1, inputs1, pc1⟩ := step_presented (i := .porst) presented rfl rfl
  obtain ⟨t2, step2, ran2, cfg2, inputs2, pc2⟩ := step_presented (i := .srst) inputs1 rfl rfl
  obtain ⟨t3, step3, ran3, -, inputs3, pc3⟩ := step_presented inputs2 rfl (cfg2.trans cfg1 ▸ decoded)
  obtain ⟨t4, step4, ran4, -, inputs4, pc4⟩ := step_presented (i := .rd addr) inputs3 rfl rfl
  have t4Host : t4 = t4.withHost { s with inputs := rest, pc := s.pc + 4 } :=
    eq_withHost inputs4 (by simp only [pc4, pc3, pc2, pc1])
  refine ⟨t1, t2, t3, t4, step1, step2, step3, step4, ?_, by cases ran1; rfl, by cases ran2; rfl, ?_,
    by cases ran4; rfl⟩
  · calc runAll [.porst, .srst, i, .rd addr] (s.withHost { s with inputs := rest, pc := s.pc + 4 })
      _ = runAll [.srst, i, .rd addr] (t1.withHost _) := runAll_cons (exec_withHost_of_accept ran1 _) _
      _ = runAll [i, .rd addr] (t2.withHost _) := runAll_cons (exec_withHost_of_accept ran2 _) _
      _ = runAll [.rd addr] (t3.withHost _) := runAll_cons (exec_withHost_of_accept ran3 _) _
      _ = runAll [] (t4.withHost _) := runAll_cons (exec_withHost_of_accept ran4 _) _
      _ = .next t4 := congrArg Host.Outcome.next t4Host.symm
  · intro t ran
    have same : t3.withHost t2 = t := Host.Outcome.next.inj ((exec_withHost_of_accept ran3 t2).symm.trans ran)
    exact same ▸ rfl

end Sys2Proof
end

section
/-!
The stripped caption pair (41_caption.md R129). The decoder and the interpreter make the same decisions: one function
names the row a pair selects, first match wins, and it is at once what the word of the pair decodes to and what the
interpreter runs. Before it stand the operands of a pair as the numbers the statements write.
-/

namespace Sys2Proof.Machine

/-! ### The operands of a pair as numbers (30_encoding.md R76, 41_caption.md R122 to R125) -/

/-- The word of a pair, as the statements write it. -/
theorem captionWord_eq_ccWord (c1 c2 : Char7) : captionWord c1 c2 = ccWord c1 c2 := by
  apply BitVec.eq_of_toNat_eq
  have word : (ccWord c1 c2).toNat = ((c1.toNat <<< 1) <<< 7) ||| c2.toNat := by
    rw [ccWord, BitVec.toNat_append, BitVec.toNat_append, BitVec.toNat_append]
    simp
  rw [word, ← Nat.shiftLeft_add_eq_or_of_lt c2.isLt, Nat.shiftLeft_eq, Nat.shiftLeft_eq, captionWord, BitVec.toNat_ofNat]
  omega

theorem extractLsb'_eq_ofNat_field {w : Nat} (v : BitVec w) {lo n hi : Nat} (h : hi + 1 = lo + n) :
    v.extractLsb' lo n = BitVec.ofNat n (field v hi lo) := by
  rw [← extractLsb'_toNat_eq_field v h, BitVec.ofNat_toNat, BitVec.setWidth_eq]

theorem ccChannel_eq_ofNat (c1 : Char7) : ccChannel c1 = BitVec.ofNat 1 (field c1 3 3) :=
  extractLsb'_eq_ofNat_field c1 rfl

theorem ccField_eq_ofNat (c1 : Char7) : ccField c1 = BitVec.ofNat 1 (field c1 0 0) :=
  extractLsb'_eq_ofNat_field c1 rfl

theorem ccUnderline_eq_ofNat (c2 : Char7) : ccUnderline c2 = BitVec.ofNat 1 (field c2 0 0) :=
  extractLsb'_eq_ofNat_field c2 rfl

theorem ccAttr_eq_ofNat (c2 : Char7) : ccAttr c2 = BitVec.ofNat 3 (field c2 3 1) :=
  extractLsb'_eq_ofNat_field c2 rfl

theorem ccA7_toNat (c1 : Char7) : (ccA7 c1).toNat = c1.toNat % 8 := by
  simp [ccA7]

theorem ccA7_eq_iff {c1 : Char7} {a : BitVec 3} : ccA7 c1 = a ↔ c1.toNat % 8 = a.toNat := by
  rw [← ccA7_toNat, BitVec.toNat_inj]

/-- The two families of mnemonics: 16 above the nibble, or the nibble itself (R126, R127). -/
theorem mnemonic_eq_ofNat (c2 : Char7) :
    16 + (c2.extractLsb' 0 4).setWidth 6 = BitVec.ofNat 6 (16 + field c2 3 0) ∧
      (c2.extractLsb' 0 4).setWidth 6 = BitVec.ofNat 6 (field c2 3 0) := by
  have nibble := extractLsb'_toNat_eq_field c2 (lo := 0) (n := 4) (hi := 3) rfl
  constructor <;> rw [← nibble] <;> bv_omega

/-- `c2[4]` selects between four times `c2[3:1]` and `c2[3:1]` (R133). -/
theorem pacPosition_eq (c2 : Char7) :
    pacPosition c2 =
      if field c2 4 4 = 1 then .column (BitVec.ofNat 5 (4 * field c2 3 1)) else .color (BitVec.ofNat 3 (field c2 3 1)) := by
  have select : c2.getLsbD 4 = true ↔ field c2 4 4 = 1 := by
    rw [← BitVec.testBit_toNat, Nat.testBit_eq_decide_div_mod_eq, decide_eq_true_eq]
    rfl
  have column : (ccAttr c2).setWidth 5 * 4 = BitVec.ofNat 5 (4 * field c2 3 1) := by
    rw [← extractLsb'_toNat_eq_field c2 (lo := 1) (n := 3) rfl, ccAttr]
    bv_omega
  rw [pacPosition, column, ccAttr_eq_ofNat]
  exact if_congr select rfl rfl

/-- A table entry in range, as the statements read it. -/
theorem getElem_eq_toList_getD {α : Type} {n : Nat} (v : Vector α n) {i k : Nat} (hi : i < n) (h : i = k) (d : α) :
    v[i] = v.toList.getD k d := by
  subst h
  simp [List.getD, hi]

theorem pacIndex_toNat (c1 c2 : Char7) : (pacIndex c1 c2).toNat = 2 * (c1.toNat % 8) + field c2 5 5 := by
  have low := extractLsb'_toNat_eq_field c2 (lo := 5) (n := 1) (hi := 5) rfl
  rw [pacIndex, BitVec.toNat_append, ← Nat.shiftLeft_add_eq_or_of_lt (c2.extractLsb' 5 1).isLt, ccA7_toNat, low,
    Nat.shiftLeft_eq]
  omega

theorem pacRow_eq_getD (cfg : Config) (c1 c2 : Char7) :
    pacRow cfg c1 c2 = cfg.pacRow.toList.getD (2 * (c1.toNat % 8) + field c2 5 5) 0 :=
  getElem_eq_toList_getD cfg.pacRow _ (pacIndex_toNat c1 c2) 0

theorem basicChar_eq_getD (cfg : Config) (c : Char7) :
    basicChar cfg c = cfg.ccBasic.toList.getD (c.toNat - 0x20) 0 := by
  simp [basicChar, List.getD]

theorem specialChar_eq_getD (cfg : Config) (c2 : Char7) :
    specialChar cfg c2 = cfg.ccSpecial.toList.getD (field c2 3 0) 0 :=
  getElem_eq_toList_getD cfg.ccSpecial _ (extractLsb'_toNat_eq_field c2 (lo := 0) (n := 4) rfl) 0

/-- From 0x20 to 0x3F the five low bits are the distance from 0x20 (R124). -/
theorem extendedChar_eq_getD (cfg : Config) (c1 : Char7) {c2 : Char7} (low : 0x20 ≤ c2.toNat) (high : c2.toNat ≤ 0x3F) :
    extendedChar cfg c1 c2 =
      (if c1.toNat % 8 = 2 then cfg.ccExt2 else cfg.ccExt3).toList.getD (c2.toNat - 0x20) 0 := by
  have index : (c2.extractLsb' 0 5).toNat = c2.toNat - 0x20 := by
    rw [BitVec.extractLsb'_toNat, Nat.shiftRight_zero]
    omega
  have table : (if ccA7 c1 == 2 then cfg.ccExt2 else cfg.ccExt3) =
      if c1.toNat % 8 = 2 then cfg.ccExt2 else cfg.ccExt3 :=
    if_congr (beq_iff_eq.trans ccA7_eq_iff) rfl rfl
  rw [← table]
  exact getElem_eq_toList_getD _ _ index 0

/-! ### The row a stripped pair selects (41_caption.md R129) -/

/-- The row of the case table of R129, by `a7`. -/
def captionTableRow (line : Line) (c1 c2 : Char7) : Instr :=
  match ccA7 c1 with
  | 0 => if c2 < 0x30#7 then .ccBackground line c1 c2 else .ccUnknown line c1 c2
  | 1 => if c2 < 0x30#7 then .ccMidrow line c1 c2 else .ccSpecial line c1 c2
  | 2 => .ccExtended line c1 c2
  | 3 => .ccExtended line c1 c2
  | 4 => if c2 < 0x30#7 then .ccControl line c1 c2 else .ccUnknown line c1 c2
  | 5 => if c2 < 0x30#7 then .ccControl line c1 c2 else .ccUnknown line c1 c2
  | 6 => .ccReservedA76 line c1 c2
  | _ =>
    if c2 = 0x21#7 then .ccTo1 line c1 c2
    else if c2 = 0x22#7 then .ccTo2 line c1 c2
    else if c2 = 0x23#7 then .ccTo3 line c1 c2
    else if c2 = 0x2D#7 then .ccBt line c1 c2
    else if c2 = 0x2E#7 then .ccFa line c1 c2
    else if c2 = 0x2F#7 then .ccFau line c1 c2
    else .ccUnknown line c1 c2

section

variable (line : Line) {c1 : Char7} (c2 : Char7)

theorem captionTableRow_of_a7_eq_0 (a7 : c1.toNat % 8 = 0) :
    captionTableRow line c1 c2 = if c2 < 0x30#7 then .ccBackground line c1 c2 else .ccUnknown line c1 c2 := by
  simp [captionTableRow, ccA7_eq_iff (a := 0#3).mpr a7]

theorem captionTableRow_of_a7_eq_1 (a7 : c1.toNat % 8 = 1) :
    captionTableRow line c1 c2 = if c2 < 0x30#7 then .ccMidrow line c1 c2 else .ccSpecial line c1 c2 := by
  simp [captionTableRow, ccA7_eq_iff (a := 1#3).mpr a7]

theorem captionTableRow_of_a7_eq_2_or_3 (a7 : c1.toNat % 8 = 2 ∨ c1.toNat % 8 = 3) :
    captionTableRow line c1 c2 = .ccExtended line c1 c2 := by
  rcases a7 with a7 | a7
  · simp [captionTableRow, ccA7_eq_iff (a := 2#3).mpr a7]
  · simp [captionTableRow, ccA7_eq_iff (a := 3#3).mpr a7]

theorem captionTableRow_of_a7_eq_4_or_5 (a7 : c1.toNat % 8 = 4 ∨ c1.toNat % 8 = 5) :
    captionTableRow line c1 c2 = if c2 < 0x30#7 then .ccControl line c1 c2 else .ccUnknown line c1 c2 := by
  rcases a7 with a7 | a7
  · simp [captionTableRow, ccA7_eq_iff (a := 4#3).mpr a7]
  · simp [captionTableRow, ccA7_eq_iff (a := 5#3).mpr a7]

theorem captionTableRow_of_a7_eq_6 (a7 : c1.toNat % 8 = 6) :
    captionTableRow line c1 c2 = .ccReservedA76 line c1 c2 := by
  simp [captionTableRow, ccA7_eq_iff (a := 6#3).mpr a7]

theorem captionTableRow_of_a7_eq_7 (a7 : c1.toNat % 8 = 7) :
    captionTableRow line c1 c2 =
      if c2 = 0x21#7 then .ccTo1 line c1 c2
      else if c2 = 0x22#7 then .ccTo2 line c1 c2
      else if c2 = 0x23#7 then .ccTo3 line c1 c2
      else if c2 = 0x2D#7 then .ccBt line c1 c2
      else if c2 = 0x2E#7 then .ccFa line c1 c2
      else if c2 = 0x2F#7 then .ccFau line c1 c2
      else .ccUnknown line c1 c2 := by
  simp [captionTableRow, ccA7_eq_iff (a := 7#3).mpr a7]

end

/-- The row of a pair, first match wins. -/
def captionRow (cfg : Config) (line : Line) (c1 c2 : Char7) : Instr :=
  if c1 = 0 then .ccNull line c1 c2
  else if 0x20#7 ≤ c1 then .ccText line c1 c2
  else if c2 < 0x20#7 then .ccInvalidC2 line c1 c2
  else if 0x40#7 ≤ c2 then
    if pacRow cfg c1 c2 = 0 then .ccPacUnassigned line c1 c2 else .ccPac line c1 c2
  else captionTableRow line c1 c2

theorem ccA7_cases (c1 : Char7) :
    ccA7 c1 = 0#3 ∨ ccA7 c1 = 1#3 ∨ ccA7 c1 = 2#3 ∨ ccA7 c1 = 3#3 ∨ ccA7 c1 = 4#3 ∨ ccA7 c1 = 5#3 ∨ ccA7 c1 = 6#3 ∨
      ccA7 c1 = 7#3 := by
  generalize ccA7 c1 = a
  revert a
  decide

/-- The table of R129 and the masks of the rows in ascending priority select the same row. -/
theorem decodeCc_eq_captionTableRow (cfg : Config) (line : Line) {c1 c2 : Char7} (hc : 1#7 ≤ c1 ∧ c1 ≤ 0x1F#7)
    (h2 : 0x20#7 ≤ c2 ∧ c2 ≤ 0x3F#7) : decodeCc cfg line (ccWord c1 c2) = .ok (captionTableRow line c1 c2) := by
  have lowHalf : (0x20 ≤ c2 ∧ c2 ≤ 0x2F) ↔ c2 < 0x30#7 := by bv_omega
  have highHalf : (0x30 ≤ c2 ∧ c2 ≤ 0x3F) ↔ ¬ c2 < 0x30#7 := by bv_omega
  have both : (0x20 ≤ c2 ∧ c2 ≤ 0x3F) ↔ True := iff_true_intro h2
  rw [Laws.DecodeEncode.decodeCc_table cfg line c1 c2 hc h2]
  simp only [lowHalf, highHalf, both]
  by_cases lower : c2 < 0x30#7 <;>
    rcases ccA7_cases c1 with a7 | a7 | a7 | a7 | a7 | a7 | a7 | a7 <;> simp [captionTableRow, a7, lower]

theorem decode_captionWord (cfg : Config) (line : Line) (c1 c2 : Char7) :
    decode cfg (.cc line (captionWord c1 c2)) = .ok (captionRow cfg line c1 c2) := by
  rw [captionWord_eq_ccWord]
  show decodeCc cfg line (ccWord c1 c2) = _
  unfold captionRow
  split
  · next null => rw [decodeCc_eq, if_pos null]
  split
  · next null text => rw [decodeCc_eq, if_neg null, if_pos (show 0x20 ≤ c1 from text)]
  split
  · next null text invalid =>
    rw [decodeCc_eq, if_neg null, if_neg (show ¬ 0x20 ≤ c1 from text), if_pos (show c2 < 0x20 from invalid)]
  next null text valid =>
  split
  · next pac =>
    rw [decodeCc_eq, if_neg null, if_neg (show ¬ 0x20 ≤ c1 from text), if_neg (show ¬ c2 < 0x20 from valid)]
    by_cases unassigned : pacRow cfg c1 c2 = 0
    · rw [if_pos (show 0x40 ≤ c2 ∧ pacRow cfg c1 c2 = 0 from ⟨pac, unassigned⟩), if_pos unassigned]
    · rw [if_neg fun row => unassigned row.2, if_pos (show 0x40 ≤ c2 from pac), if_neg unassigned]
  · next table => exact decodeCc_eq_captionTableRow cfg line (by bv_omega) (by bv_omega)

theorem exec_ite (p : Prop) [Decidable p] (i j : Instr) (s : State) :
    exec (if p then i else j) s = if p then exec i s else exec j s :=
  apply_ite (exec · s) p i j

theorem exec_captionTableRow (line : Line) (c1 c2 : Char7) (s : State) :
    exec (captionTableRow line c1 c2) s = runCcTable line c1 c2 s := by
  rcases ccA7_cases c1 with a7 | a7 | a7 | a7 | a7 | a7 | a7 | a7 <;>
    simp only [captionTableRow, runCcTable, a7, exec_ite, BitVec.reduceEq, imp_self] <;> rfl

/-- The meaning of the PAC row sends an unassigned row to the row of R134 itself. -/
theorem execCcPac_eq_ite (line : Line) (c1 c2 : Char7) (s : State) :
    execCcPac line c1 c2 s =
      if pacRow s.cfg c1 c2 = 0 then execCcPacUnassigned line c1 c2 s else execCcPac line c1 c2 s := by
  by_cases unassigned : pacRow s.cfg c1 c2 = 0
  · rw [if_pos unassigned, execCcPac, if_pos unassigned]
  · rw [if_neg unassigned]

/-- The interpreter runs the row. -/
theorem exec_captionRow (line : Line) (c1 c2 : Char7) (s : State) :
    exec (captionRow s.cfg line c1 c2) s = runCcPair line c1 c2 s := by
  simp only [captionRow, exec_ite, exec_captionTableRow]
  rw [runCcPair, execCcPac_eq_ite]
  rfl

/-! The rows by the ranges of the pair, the second byte from below. -/

section

variable (cfg : Config) (line : Line) {c1 c2 : Char7}

theorem decode_null (c2 : Char7) : decode cfg (.cc line (captionWord 0 c2)) = .ok (.ccNull line 0 c2) := by
  rw [decode_captionWord, captionRow, if_pos rfl]

theorem decode_text (text : 0x20 ≤ c1.toNat) :
    decode cfg (.cc line (captionWord c1 c2)) = .ok (.ccText line c1 c2) := by
  rw [decode_captionWord, captionRow, if_neg (by bv_omega), if_pos (by bv_omega)]

theorem decode_control (low : 1 ≤ c1.toNat) (high : c1.toNat ≤ 0x1F) :
    decode cfg (.cc line (captionWord c1 c2)) = .ok
      (if c2 < 0x20#7 then .ccInvalidC2 line c1 c2
       else if 0x40#7 ≤ c2 then
         if pacRow cfg c1 c2 = 0 then .ccPacUnassigned line c1 c2 else .ccPac line c1 c2
       else captionTableRow line c1 c2) := by
  rw [decode_captionWord, captionRow, if_neg (by bv_omega), if_neg (by bv_omega)]

theorem decode_invalidC2 (low : 1 ≤ c1.toNat) (high : c1.toNat ≤ 0x1F) (invalid : c2.toNat < 0x20) :
    decode cfg (.cc line (captionWord c1 c2)) = .ok (.ccInvalidC2 line c1 c2) := by
  rw [decode_control cfg line low high, if_pos (by bv_omega)]

theorem decode_pac (low : 1 ≤ c1.toNat) (high : c1.toNat ≤ 0x1F) (pac : 0x40 ≤ c2.toNat) :
    decode cfg (.cc line (captionWord c1 c2)) = .ok
      (if pacRow cfg c1 c2 = 0 then .ccPacUnassigned line c1 c2 else .ccPac line c1 c2) := by
  rw [decode_control cfg line low high, if_neg (by bv_omega), if_pos (by bv_omega)]

theorem decode_table (low : 1 ≤ c1.toNat) (high : c1.toNat ≤ 0x1F) (low2 : 0x20 ≤ c2.toNat) (high2 : c2.toNat ≤ 0x3F) :
    decode cfg (.cc line (captionWord c1 c2)) = .ok (captionTableRow line c1 c2) := by
  rw [decode_control cfg line low high, if_neg (by bv_omega), if_neg (by bv_omega)]

end

end Sys2Proof.Machine
end

section
/-!
Captions (41_caption.md). A parity-clean request runs the row of its stripped pair; the row's next state is one of the
three caption effects, with its operands as numbers; the channel of a record follows from the effect that emits it.
-/

namespace Sys2Proof.Machine

/-! ### A request whose bytes pass the parity check (41_caption.md R120) -/

theorem unpar8_of_odd {b : Byte} (odd : ones b % 2 = 1) : unpar8 b = some (BitVec.ofNat 7 (b.toNat % 128)) := by
  rw [unpar8, popcount_eq_ones, if_pos odd, low7_eq_ofNat]

theorem execCcParityOk_eq (line : Line) (b0 b1 : Byte) (s : State) :
    execCcParityOk line b0 b1 s =
      runCcPair line (BitVec.ofNat 7 (b0.toNat % 128)) (BitVec.ofNat 7 (b1.toNat % 128)) s := by
  rw [execCcParityOk, low7_eq_ofNat, low7_eq_ofNat]

/-- Both caption operations interpret the stripped pair. -/
theorem exec_caption_of_odd {line : Line} {b0 b1 : Byte} {i : Instr} (s : State) (inRange : line.toNat ≤ 1023)
    (odd0 : ones b0 % 2 = 1) (odd1 : ones b1 % 2 = 1) (hi : i = .decCc525 line b0 b1 ∨ i = .decCc625 line b0 b1) :
    exec i s = runCcPair line (BitVec.ofNat 7 (b0.toNat % 128)) (BitVec.ofNat 7 (b1.toNat % 128)) s := by
  have service : exec i s = withLine line s (runCaption line b0 b1 s) := by
    rcases hi with rfl | rfl <;> rfl
  rw [service, withLine_of_le s _ inRange, runCaption, unpar8_of_odd odd0, unpar8_of_odd odd1]
  exact execCcParityOk_eq line b0 b1 s

/-- Whatever row a pair selects, its record holds the line and the pair. -/
theorem runCcPair_rsp (line : Line) (c1 c2 : Char7) (s : State) :
    ∃ t ch cmd, runCcPair line c1 c2 s = .next t ∧ t.rsp = some (.cc line ch c1 c2 cmd) := by
  obtain ⟨t, ran⟩ := (runCcPair_serves line c1 c2 s).total
  refine ⟨t, ?_⟩
  rcases runCcPair_next ran with ⟨cmd, -, rfl⟩ | rfl | ⟨cmd, -, rfl⟩
  · exact ⟨_, _, ran, rfl⟩
  · exact ⟨_, _, ran, rfl⟩
  · exact ⟨_, _, ran, rfl⟩

/-! ### The next states of the rows, with the channel as a number (41_caption.md R121) -/

theorem ccCommand_eq (line : Line) (c1 c2 : Char7) (cmd : CcKind) (s : State) :
    ccCommand line c1 c2 cmd s =
      { s with
        ccCh := BitVec.ofNat 1 (field c1 3 3)
        rsp := some (.cc line (BitVec.ofNat 1 (field c1 3 3)) c1 c2 cmd)
        rdata := none } := by
  rw [← ccChannel_eq_ofNat]
  rfl

theorem ccUnrecognised_eq (line : Line) (c1 c2 : Char7) (s : State) :
    ccUnrecognised line c1 c2 s =
      { s with rsp := some (.cc line (BitVec.ofNat 1 (field c1 3 3)) c1 c2 .unknown), rdata := none } := by
  rw [← ccChannel_eq_ofNat]
  rfl

theorem exec_of_ccCommand {i : Instr} {line : Line} {c1 c2 : Char7} {cmd cmd' : CcKind} {s : State}
    (row : exec i s = .next (ccCommand line c1 c2 cmd s)) (kind : cmd = cmd') :
    exec i s = .next
      { s with
        ccCh := BitVec.ofNat 1 (field c1 3 3)
        rsp := some (.cc line (BitVec.ofNat 1 (field c1 3 3)) c1 c2 cmd')
        rdata := none } := by
  rw [row, kind, ccCommand_eq]

theorem exec_of_ccUnrecognised {i : Instr} {line : Line} {c1 c2 : Char7} {s : State}
    (row : exec i s = .next (ccUnrecognised line c1 c2 s)) :
    exec i s = .next
      { s with rsp := some (.cc line (BitVec.ofNat 1 (field c1 3 3)) c1 c2 .unknown), rdata := none } := by
  rw [row, ccUnrecognised_eq]

theorem exec_ccPac_of_assigned {line : Line} {c1 c2 : Char7} {s : State} (assigned : pacRow s.cfg c1 c2 ≠ 0) :
    exec (.ccPac line c1 c2) s =
      .next (ccCommand line c1 c2 (.pac (pacRow s.cfg c1 c2) (ccUnderline c2) (pacPosition c2)) s) := by
  rw [exec, execCcPac, if_neg assigned]

/-! ### The channel of a caption record (41_caption.md R121) -/

/-- Which channel an effect's caption record carries, and what becomes of `CC_CH`. -/
theorem Effect.channel {i : Instr} {s t : State} {line : Line} {ch : BitVec 1} {c1 c2 : Char7} {cmd : CcKind}
    (h : Effect s i t) (emitted : t.rsp = some (.cc line ch c1 c2 cmd)) :
    (ccRecognised cmd = true ∧ ch = ccChannel c1 ∧ t.ccCh = ch) ∨
    (cmd = .unknown ∧ ch = ccChannel c1 ∧ t.ccCh = s.ccCh) ∨
    ((cmd = .null ∨ ∃ a b, cmd = .text a b) ∧ ch = s.ccCh ∧ t.ccCh = s.ccCh) := by
  cases h with
  | record _ r plain => cases emitted; cases plain
  | command _ _ _ _ _ known => cases emitted; exact .inl ⟨known, rfl, rfl⟩
  | unknown => cases emitted; exact .inr (.inl ⟨rfl, rfl, rfl⟩)
  | channelless _ _ _ _ _ kind => cases emitted; exact .inr (.inr ⟨kind, rfl, rfl⟩)
  | _ => cases emitted

end Sys2Proof.Machine

namespace Sys2Proof

open Sys2Proof.Machine

/-! ### The statements -/

/-- Settles O25: the word of the stripped pair decodes to the row that the interpreter runs. -/
theorem captionRunsItsRow : Obligations.CaptionRunsItsRow := by
  intro line b0 b1 s odd0 odd1
  obtain ⟨t, -, -, ran, -⟩ := runCcPair_rsp line (BitVec.ofNat 7 (b0.toNat % 128)) (BitVec.ofNat 7 (b1.toNat % 128)) s
  refine ⟨_, t, decode_captionWord .., (exec_captionRow ..).trans ran, ?_, (execCcParityOk_eq ..).trans ran,
    fun inRange => ⟨(exec_caption_of_odd s inRange odd0 odd1 (.inl rfl)).trans ran,
      (exec_caption_of_odd s inRange odd0 odd1 (.inr rfl)).trans ran⟩⟩
  simp [decode, decodeCcraw, unpar8_of_odd odd0, unpar8_of_odd odd1]

/-- Settles O36: the two operations are one service, and the record of a pair holds the line and the pair. -/
theorem captionRecord : Obligations.CaptionRecord := by
  intro line b0 b1 s
  refine ⟨rfl, fun inRange odd0 odd1 => ?_⟩
  rw [exec_caption_of_odd s inRange odd0 odd1 (.inl rfl)]
  exact runCcPair_rsp ..

/-- Settles O35: the three families of kinds are the three caption effects. -/
theorem channelMemory : Obligations.ChannelMemory := by
  intro i s t line ch c1 c2 cmd ran emitted
  rw [← ccChannel_eq_ofNat]
  rcases (exec_effect ran).channel emitted with ⟨known, channel⟩ | ⟨rfl, channel⟩ | ⟨rfl | ⟨a, b, rfl⟩, channel⟩
  · cases cmd with
    | null => cases known
    | text => cases known
    | unknown => cases known
    | _ => exact channel
  · exact channel
  · exact channel
  · exact channel

/-- Settles O26: Null comes first in the order of R129, and its row does not branch. -/
theorem captionNull : Obligations.CaptionNull :=
  ⟨fun cfg line c2 => decode_null cfg line c2, fun _ _ _ => rfl⟩

/-- Settles O27: the characters are entries of the basic table. -/
theorem captionText : Obligations.CaptionText := by
  intro line c1 c2 s text
  refine ⟨fun cfg => decode_text cfg line text, ?_⟩
  rw [← basicChar_eq_getD, ← basicChar_eq_getD]
  rfl

/-- Settles O28: each clause selects one of the four rows whose meaning is the Unknown record. -/
theorem captionUnknown : Obligations.CaptionUnknown := by
  intro line c1 c2 s i low high clauses
  have table := decode_table s.cfg line (c2 := c2) low high
  rcases clauses with ⟨invalid, rfl⟩ | ⟨pac, unassigned, rfl⟩ | ⟨a7, low2, high2, rfl⟩ | ⟨a7, low2, high2, rfl⟩ |
    ⟨a7, low2, high2, notExact, rfl⟩
  · exact ⟨decode_invalidC2 s.cfg line low high invalid, exec_of_ccUnrecognised rfl⟩
  · rw [← pacRow_eq_getD] at unassigned
    exact ⟨by rw [decode_pac s.cfg line low high pac, if_pos unassigned], exec_of_ccUnrecognised rfl⟩
  · refine ⟨?_, exec_of_ccUnrecognised rfl⟩
    rw [table low2 high2, captionTableRow_of_a7_eq_6 line c2 a7]
  · refine ⟨?_, exec_of_ccUnrecognised rfl⟩
    rw [table (by omega) high2]
    have upper : ¬ c2 < 0x30#7 := by bv_omega
    rcases a7 with a7 | a7
    · rw [captionTableRow_of_a7_eq_0 line c2 a7, if_neg upper]
    · rw [captionTableRow_of_a7_eq_4_or_5 line c2 a7, if_neg upper]
  · refine ⟨?_, exec_of_ccUnrecognised rfl⟩
    simp only [List.mem_cons, List.not_mem_nil, or_false, not_or] at notExact
    rw [table low2 high2, captionTableRow_of_a7_eq_7 line c2 a7, if_neg (by bv_omega), if_neg (by bv_omega),
      if_neg (by bv_omega), if_neg (by bv_omega), if_neg (by bv_omega), if_neg (by bv_omega)]

/-- Settles O29: the row table holds an assigned row, so the meaning of the PAC row does not leave it. -/
theorem captionPac : Obligations.CaptionPac := by
  intro line c1 c2 s low high pac assigned
  rw [← pacRow_eq_getD] at assigned ⊢
  refine ⟨by rw [decode_pac s.cfg line low high pac, if_neg assigned], ?_⟩
  refine exec_of_ccCommand (exec_ccPac_of_assigned assigned) ?_
  rw [ccUnderline_eq_ofNat, pacPosition_eq]

/-- Settles O30: the lower half of the table at address 1. -/
theorem captionMidrow : Obligations.CaptionMidrow := by
  intro line c1 c2 s low high a7 low2 high2
  have lower : c2 < 0x30#7 := by bv_omega
  refine ⟨fun cfg => ?_, exec_of_ccCommand rfl ?_⟩
  · rw [decode_table cfg line low high low2 (by omega), captionTableRow_of_a7_eq_1 line c2 a7, if_pos lower]
  · rw [ccAttr_eq_ofNat, ccUnderline_eq_ofNat]

/-- Settles O31: the upper half of the table at address 1. -/
theorem captionSpecial : Obligations.CaptionSpecial := by
  intro line c1 c2 s low high a7 low2 high2
  have upper : ¬ c2 < 0x30#7 := by bv_omega
  refine ⟨fun cfg => ?_, exec_of_ccCommand rfl ?_⟩
  · rw [decode_table cfg line low high (by omega) high2, captionTableRow_of_a7_eq_1 line c2 a7, if_neg upper]
  · rw [specialChar_eq_getD]

/-- Settles O32: at the addresses 2 and 3 the table has one row, and the address selects the character table. -/
theorem captionExtended : Obligations.CaptionExtended := by
  intro line c1 c2 s low high a7 low2 high2
  refine ⟨fun cfg => ?_, exec_of_ccCommand rfl ?_⟩
  · rw [decode_table cfg line low high low2 high2, captionTableRow_of_a7_eq_2_or_3 line c2 a7]
  · rw [extendedChar_eq_getD s.cfg c1 low2 high2]

/-- Settles O33: the lower halves of the table at address 0 and at the addresses 4 and 5. -/
theorem captionBackgroundAndControl : Obligations.CaptionBackgroundAndControl := by
  intro line c1 c2 s low high low2 high2
  have lower : c2 < 0x30#7 := by bv_omega
  have table := fun cfg => decode_table cfg line low high low2 (by omega)
  obtain ⟨background, control⟩ := mnemonic_eq_ofNat c2
  refine ⟨fun a7 => ⟨fun cfg => ?_, exec_of_ccCommand rfl ?_⟩, fun a7 => ⟨fun cfg => ?_, exec_of_ccCommand rfl ?_⟩⟩
  · rw [table, captionTableRow_of_a7_eq_0 line c2 a7, if_pos lower]
  · rw [background]
  · rw [table, captionTableRow_of_a7_eq_4_or_5 line c2 a7, if_pos lower]
  · rw [control, ccField_eq_ofNat]

/-- Settles O34: at address 7 the table compares the second byte with each of the six codes. -/
theorem captionExactCodes : Obligations.CaptionExactCodes := by
  intro line c1 s c2 mnem i low high a7 code
  have decoded : 0x20 ≤ c2.toNat → c2.toNat ≤ 0x3F → ∀ cfg, decode cfg (.cc line (captionWord c1 c2)) = .ok _ :=
    fun low2 high2 cfg => (decode_table cfg line low high low2 high2).trans
      (congrArg Except.ok (captionTableRow_of_a7_eq_7 line c2 a7))
  simp only [List.mem_cons, List.not_mem_nil, or_false, Prod.mk.injEq] at code
  rcases code with ⟨rfl, rfl, rfl⟩ | ⟨rfl, rfl, rfl⟩ | ⟨rfl, rfl, rfl⟩ | ⟨rfl, rfl, rfl⟩ | ⟨rfl, rfl, rfl⟩ |
    ⟨rfl, rfl, rfl⟩ <;>
  exact ⟨decoded (by decide) (by decide), exec_of_ccCommand rfl rfl⟩

/-- Settles O37, by the sixteen entries of the table. -/
theorem defaultPacRows : Obligations.DefaultPacRows := by
  refine ⟨?_, ?_⟩ <;> decide

end Sys2Proof
end

section
/-!
The operands of a VPS packet (42_vps.md R163 to R168). `rev8` moves bit i to bit 7 - i, so it is an involution and its
low seven bits are the code the statements read bit by bit; the other operands are joins of fields of the payload, and
a join is a sum of numbers.
-/

namespace Sys2Proof.Machine

/-! ### The label byte (R163) -/

/-- A field of one bit. -/
theorem field_bit {w : Nat} (v : BitVec w) (i : Nat) : field v i i = (v.getLsbD i).toNat := by
  rw [← BitVec.testBit_toNat, Nat.toNat_testBit, field, Nat.add_sub_cancel_left, pow_one]

/-- The low bits of a number, as the sum of their weights. -/
theorem mod_two_pow_eq_sum_bits (x n : Nat) :
    x % 2 ^ n = ((List.range n).map fun k => x / 2 ^ k % 2 * 2 ^ k).sum := by
  induction n with
  | zero => simp [Nat.mod_one]
  | succ n ih => simp [List.range_succ, Nat.mod_pow_succ, ih, Nat.mul_comm]

theorem rev8_getLsbD (b : Byte) {i : Nat} (h : i < 8) : (rev8 b).getLsbD i = b.getLsbD (7 - i) := by
  simp only [rev8, BitVec.getLsbD_append, BitVec.getLsbD_extractLsb']
  interval_cases i <;> simp

theorem rev8_rev8 (b : Byte) : rev8 (rev8 b) = b := by
  apply BitVec.eq_of_getLsbD_eq
  intro i hi
  rw [rev8_getLsbD _ hi, rev8_getLsbD _ (by omega), Nat.sub_sub_self (by omega)]

/-- The code of a label byte is the low seven bits of the reversed byte. -/
theorem labelCode_eq (b : Byte) : labelCode b = ((rev8 b).extractLsb' 0 7).toNat := by
  have bits : ∀ k ∈ List.range 7, field b (7 - k) (7 - k) * 2 ^ k = (rev8 b).toNat / 2 ^ k % 2 * 2 ^ k := by
    intro k hk
    have lt : k < 8 := (List.mem_range.mp hk).trans (by decide)
    rw [field_bit, ← rev8_getLsbD b lt, ← BitVec.testBit_toNat, Nat.toNat_testBit]
  rw [labelCode, List.map_congr_left bits, ← mod_two_pow_eq_sum_bits]
  rfl

/-- The flag of a label byte is its bit 0. -/
theorem vpsFlag_eq (p : VpsPayload) : vpsFlag p = decide (field p[1] 0 0 = 1) := by
  rw [vpsFlag, vpsLabelByte, bitOf, rev8_getLsbD _ (by decide), field_bit]
  cases p[1].getLsbD (7 - 7) <;> rfl

theorem printable_of_isPrintable {c : Char7} (h : isPrintable c) : printable c = c := if_pos h

theorem printable_eq_ofNat (c : Char7) :
    printable c = BitVec.ofNat 7 (if 0x20 ≤ c.toNat ∧ c.toNat ≤ 0x7E then c.toNat else 0x2E) := by
  rw [apply_ite (BitVec.ofNat 7), BitVec.ofNat_toNat, BitVec.setWidth_eq]
  rfl

/-- The character of a packet, from the code of its label byte (R160). -/
theorem vpsChar_eq_ofNat (p : VpsPayload) :
    vpsChar p =
      BitVec.ofNat 7 (if 0x20 ≤ labelCode p[1] ∧ labelCode p[1] ≤ 0x7E then labelCode p[1] else 0x2E) := by
  rw [labelCode_eq]
  exact printable_eq_ofNat _

/-- The flag of a packet in a choice between two values. -/
theorem ite_vpsFlag {α : Type} (p : VpsPayload) (a b : α) :
    (if vpsFlag p then a else b) = if field p[1] 0 0 = 1 then a else b := by
  simp only [vpsFlag_eq, decide_eq_true_eq]

/-! ### A packet made from a flag and a character (R163, R173) -/

theorem flagAbove_getLsbD (f : BitVec 1) (c : Char7) : (f ++ c).getLsbD 7 = f.getLsbD 0 := by
  rw [BitVec.getLsbD_append]
  rfl

section

variable {p : VpsPayload} {f : BitVec 1} {c : Char7}

theorem vpsLabelByte_of_sent (sent : p[1] = rev8 (f ++ c)) : vpsLabelByte p = f ++ c := by
  rw [vpsLabelByte, sent, rev8_rev8]

theorem vpsFlag_of_sent (sent : p[1] = rev8 (f ++ c)) : vpsFlag p = f.getLsbD 0 := by
  rw [vpsFlag, vpsLabelByte_of_sent sent, bitOf, flagAbove_getLsbD]

theorem vpsChar_of_sent (sent : p[1] = rev8 (f ++ c)) (hc : isPrintable c) : vpsChar p = c := by
  rw [vpsChar, vpsLabelByte_of_sent sent, BitVec.extractLsb'_append_eq_right, printable_of_isPrintable hc]

end

/-! ### The joined fields as numbers (R164 to R168) -/

theorem append_toNat {m n : Nat} (a : BitVec m) (b : BitVec n) : (a ++ b).toNat = a.toNat * 2 ^ n + b.toNat := by
  rw [BitVec.toNat_append, ← Nat.shiftLeft_add_eq_or_of_lt b.isLt, Nat.shiftLeft_eq]

theorem vpsCni_toNat (p : VpsPayload) :
    (vpsCni p).toNat =
      1024 * field p[10] 1 0 + 256 * field p[11] 7 6 + 64 * field p[8] 7 6 + field p[11] 5 0 := by
  simp only [vpsCni, append_toNat]
  rw [extractLsb'_toNat_eq_field p[10] (lo := 0) (n := 2) (hi := 1) rfl,
    extractLsb'_toNat_eq_field p[11] (lo := 6) (n := 2) (hi := 7) rfl,
    extractLsb'_toNat_eq_field p[8] (lo := 6) (n := 2) (hi := 7) rfl,
    extractLsb'_toNat_eq_field p[11] (lo := 0) (n := 6) (hi := 5) rfl]
  omega

theorem vpsPil_toNat (p : VpsPayload) :
    (vpsPil p).toNat = 16384 * field p[8] 5 0 + 64 * p[9].toNat + field p[10] 7 2 := by
  simp only [vpsPil, append_toNat]
  rw [extractLsb'_toNat_eq_field p[8] (lo := 0) (n := 6) (hi := 5) rfl,
    extractLsb'_toNat_eq_field p[10] (lo := 2) (n := 6) (hi := 7) rfl]
  omega

theorem vpsPcs_eq_ofNat (p : VpsPayload) : vpsPcs p = BitVec.ofNat 2 (field p[2] 7 6) :=
  extractLsb'_eq_ofNat_field p[2] rfl

theorem vpsNoId_eq (cni : BitVec 12) : vpsNoId cni = decide (cni.toNat = 0 ∨ cni.toNat = 0xFFF) := by
  rw [Bool.eq_iff_iff, vpsNoId, Bool.or_eq_true, beq_iff_eq, beq_iff_eq, ← BitVec.toNat_inj, ← BitVec.toNat_inj,
    decide_eq_true_iff]
  rfl

theorem pilClass_eq (pil : BitVec 20) :
    pilClass pil =
      if pil.toNat = 0x07FFF then .timerControl
      else if pil.toNat = 0x07FBF then .inhibitTerminate
      else if pil.toNat = 0x07F7F then .interruption
      else if pil.toNat = 0x07F3F then .continue
      else if pil.toNat = 0x7FFFF then .noTime
      else .date := by
  simp only [pilClass, ← BitVec.toNat_inj]
  rfl

/-- The four date fields are the five, four, five and six bits of the PIL from the top (R167). -/
theorem vpsDate_eq_ofNat (pil : BitVec 20) :
    pil.extractLsb' 15 5 = BitVec.ofNat 5 (pil.toNat / 2 ^ 15) ∧
    pil.extractLsb' 11 4 = BitVec.ofNat 4 (pil.toNat / 2 ^ 11 % 16) ∧
    pil.extractLsb' 6 5 = BitVec.ofNat 5 (pil.toNat / 2 ^ 6 % 32) ∧
    pil.extractLsb' 0 6 = BitVec.ofNat 6 (pil.toNat % 64) := by
  refine ⟨?_, extractLsb'_eq_ofNat_field pil (hi := 14) rfl, extractLsb'_eq_ofNat_field pil (hi := 10) rfl, ?_⟩
  · rw [← Nat.shiftRight_eq_div_pow]
    rfl
  · rw [extractLsb'_eq_ofNat_field pil (lo := 0) (n := 6) (hi := 5) rfl, field, pow_zero, Nat.div_one]
    rfl

end Sys2Proof.Machine
end

section
/-!
The VPS service (42_vps.md). One packet is a label step and a record; a run of packets is followed by the part of the
label its packets have written, which the flush empties and an append extends by one character.
-/

namespace Sys2Proof.Machine

/-! ### One packet (R160) -/

theorem exec_decVps_of_le {line : Line} (inRange : line.toNat ≤ 1023) (p : VpsPayload) (s : State) :
    exec (.decVps line p) s =
      .next (emit (.vps (vpsRecord line p (prevLabel (labelStep (vpsFlag p) (vpsChar p) s))))
        (labelStep (vpsFlag p) (vpsChar p) s)) :=
  withLine_of_le s _ inRange

/-- The previous label a packet reports is the one its own flush completes, if it flushes (R169). -/
theorem prevLabel_labelStep (flag : Bool) (ch : Char7) (s : State) :
    prevLabel (labelStep flag ch s) =
      if flag then s.vpsLbuf.toList.take s.vpsLlen.toNat else s.vpsPrev.toList.take s.vpsPlen.toNat := by
  cases flag <;> rfl

/-- The position wraps after the sixteenth character (R162). -/
theorem pos_succ_eq_ofNat (pos : BitVec 4) : pos + 1 = BitVec.ofNat 4 ((pos.toNat + 1) % 16) := by
  bv_omega

/-- The length saturates at 16, also from a length above it (R162). -/
theorem len_succ_eq_ofNat (len : BitVec 5) :
    (if len < 16 then len + 1 else 16) = BitVec.ofNat 5 (min (len.toNat + 1) 16) := by
  split
  · next lt =>
    rw [Nat.min_eq_left (by bv_omega)]
    bv_omega
  · next ge =>
    rw [Nat.min_eq_right (by bv_omega)]
    rfl

theorem set_eq_setIfInBounds {α : Type} {n : Nat} (v : Vector α n) (x : α) {i : Nat} (h : i < n) :
    v.set i x h = v.setIfInBounds i x := by
  apply Vector.ext
  intro j hj
  rw [Vector.getElem_set, Vector.getElem_setIfInBounds]

/-- The label step, with the position and the length as numbers (R160 to R162). -/
theorem labelStep_eq (flag : Bool) (ch : Char7) (s : State) :
    labelStep flag ch s =
      { s with
        vpsLbuf := s.vpsLbuf.setIfInBounds (labelPos flag s).toNat ch
        vpsLpos := BitVec.ofNat 4 (((labelPos flag s).toNat + 1) % 16)
        vpsLlen := BitVec.ofNat 5 (min ((labelLen flag s).toNat + 1) 16)
        vpsPrev := if flag then s.vpsLbuf else s.vpsPrev
        vpsPlen := if flag then s.vpsLlen else s.vpsPlen } := by
  rw [← pos_succ_eq_ofNat, ← len_succ_eq_ofNat, ← set_eq_setIfInBounds s.vpsLbuf ch (labelPos flag s).isLt]
  cases flag <;> rfl

/-! ### The label a run of packets writes (R161, R162, R173) -/

/-- The characters of the current label are the first k of `chars`. -/
def LabelHolds (chars : Vector Char7 16) (k : Nat) (s : State) : Prop :=
  (∀ j (h : j < 16), j < k → s.vpsLbuf[j] = chars[j]) ∧ s.vpsLlen.toNat = k ∧ s.vpsLpos.toNat = k % 16

theorem labelHolds_emit (chars : Vector Char7 16) (k : Nat) (r : Record) (s : State) :
    LabelHolds chars k (emit r s) ↔ LabelHolds chars k s := Iff.rfl

/-- A flush starts an empty label. -/
theorem labelHolds_labelFlush (chars : Vector Char7 16) (s : State) : LabelHolds chars 0 (labelFlush s) :=
  ⟨fun _ _ h => absurd h (Nat.not_lt_zero _), rfl, rfl⟩

/-- An append extends the label by one character, at the position that is its length. -/
theorem labelHolds_labelAppend {chars : Vector Char7 16} {k : Nat} {s : State} (hk : k < 16)
    (h : LabelHolds chars k s) : LabelHolds chars (k + 1) (labelAppend chars[k] s) := by
  obtain ⟨written, len, pos⟩ := h
  rw [Nat.mod_eq_of_lt hk] at pos
  refine ⟨fun j hj below => ?_, ?_, ?_⟩
  · rw [labelAppend_vpsLbuf, Vector.getElem_set]
    split
    · next here => simp only [← here, pos]
    · next other => exact written j hj (by omega)
  · rw [labelAppend_vpsLlen_toNat _ (by omega), len, Nat.min_eq_left hk]
  · rw [labelAppend_vpsLpos, BitVec.toNat_add, pos]
    rfl

/-- A full label is the whole buffer. -/
theorem LabelHolds.full {chars : Vector Char7 16} {s : State} (h : LabelHolds chars 16 s) :
    s.vpsLbuf = chars ∧ s.vpsLlen = 16 ∧ s.vpsLpos = 0 := by
  obtain ⟨written, len, pos⟩ := h
  exact ⟨Vector.ext fun j hj => written j hj hj, BitVec.eq_of_toNat_eq len, BitVec.eq_of_toNat_eq pos⟩

/-- The packets k to 15 of a label, flagged on the first only, run on the label that the packets before them wrote,
which for packet 0 is the empty one of its own flush. -/
theorem runAll_labelPackets {line : Fin 16 → Line} {p : Fin 16 → VpsPayload} {chars : Vector Char7 16}
    (inRange : ∀ k, (line k).toNat ≤ 1023) (flag : ∀ k, vpsFlag (p k) = decide (k.val = 0))
    (char : ∀ k, vpsChar (p k) = chars[k.val]) (rest k : Nat) (count : k + rest = 16) (s : State)
    (before : LabelHolds chars k (if k = 0 then labelFlush s else s)) :
    ∃ t, runAll (((List.finRange 16).drop k).map fun k => .decVps (line k) (p k)) s = .next t ∧
      LabelHolds chars 16 t := by
  induction rest generalizing k s with
  | zero =>
    obtain rfl : k = 16 := count
    exact ⟨s, rfl, before⟩
  | succ rest ih =>
    have hk : k < 16 := by omega
    have step : labelStep (vpsFlag (p ⟨k, hk⟩)) (vpsChar (p ⟨k, hk⟩)) s =
        labelAppend chars[k] (if k = 0 then labelFlush s else s) := by
      simp only [labelStep, flag, char, decide_eq_true_eq]
    have ran := exec_decVps_of_le (inRange ⟨k, hk⟩) (p ⟨k, hk⟩) s
    rw [List.drop_eq_getElem_cons (by simpa using hk), List.map_cons, List.getElem_finRange, Fin.cast_mk,
      runAll_cons ran]
    refine ih (k + 1) (by omega) _ ?_
    rw [if_neg (Nat.succ_ne_zero k), labelHolds_emit, step]
    exact labelHolds_labelAppend hk before

end Sys2Proof.Machine

namespace Sys2Proof

open Sys2Proof.Machine

/-! ### The statements -/

/-- Settles O39: bit i of the reversed byte is bit 7 - i, twice over for the involution and once for the code and the
flag. -/
theorem labelByteRoundTrip : Obligations.LabelByteRoundTrip := by
  refine ⟨rev8_rev8, fun f x => ⟨?_, ?_⟩⟩
  · rw [labelCode_eq, rev8_rev8, BitVec.extractLsb'_append_eq_right]
  · rw [field_bit, rev8_getLsbD _ (by decide), Nat.sub_zero, flagAbove_getLsbD, ← field_bit f 0,
      ← extractLsb'_toNat_eq_field f (lo := 0) (n := 1) rfl, BitVec.extractLsb'_eq_self]

/-- Settles O38: the label step and the fields of the record, each as the number the statement names. -/
theorem vpsResult : Obligations.VpsResult := by
  intro line p s code ch pos len cni pil inRange hcode hch hpos hlen hcni hpil
  have char : vpsChar p = BitVec.ofNat 7 ch := by rw [hch, hcode]; exact vpsChar_eq_ofNat p
  have posNat : (labelPos (vpsFlag p) s).toNat = pos := by
    rw [hpos, labelPos, apply_ite BitVec.toNat, ite_vpsFlag]
    rfl
  have lenNat : (labelLen (vpsFlag p) s).toNat = len := by
    rw [hlen, labelLen, apply_ite BitVec.toNat, ite_vpsFlag]
    rfl
  rw [← vpsCni_toNat] at hcni
  rw [← vpsPil_toNat] at hpil
  obtain ⟨day, month, hour, minute⟩ := vpsDate_eq_ofNat (vpsPil p)
  rw [exec_decVps_of_le inRange, prevLabel_labelStep, labelStep_eq, posNat, lenNat, char, vpsRecord, char, vpsFlag_eq,
    vpsNoId_eq, vpsPcs_eq_ofNat, pilClass_eq, day, month, hour, minute, hcni, hpil]
  simp only [decide_eq_true_eq, BitVec.ofNat_toNat, BitVec.setWidth_eq]
  rfl

/-- Settles O41: the operands of a packet read the bytes and the field that the two payloads share. -/
theorem vpsUnusedBits : Obligations.VpsUnusedBits := by
  intro line p q s label pcs p8 p9 p10 p11 pty
  have flag : vpsFlag p = vpsFlag q := by rw [vpsFlag_eq, vpsFlag_eq, label]
  have char : vpsChar p = vpsChar q := by rw [vpsChar_eq_ofNat, vpsChar_eq_ofNat, label]
  have cni : vpsCni p = vpsCni q := by rw [vpsCni, vpsCni, p8, p10, p11]
  have pil : vpsPil p = vpsPil q := by rw [vpsPil, vpsPil, p8, p9, p10]
  have record : vpsRecord line p = vpsRecord line q := by
    funext prev
    rw [vpsRecord, vpsRecord, vpsPcs_eq_ofNat, vpsPcs_eq_ofNat, flag, char, cni, pil, pcs, pty]
  have run : runVps line p s = runVps line q s := by rw [runVps, runVps, flag, char, record]
  exact congrArg (withLine line s) run

/-- Settles O40: sixteen packets write a full label, which the flush of the next flagged packet makes the previous
one. -/
theorem labelRoundTrip : Obligations.LabelRoundTrip := by
  intro s line p chars inRange hchars sent flagged
  have flag : ∀ k : Fin 16, vpsFlag (p k.castSucc) = decide (k.val = 0) := by
    intro k
    rw [vpsFlag_of_sent (sent k)]
    by_cases first : k.val = 0 <;> simp [first]
  have char : ∀ k : Fin 16, vpsChar (p k.castSucc) = chars[k.val] := fun k => vpsChar_of_sent (sent k) (hchars k)
  obtain ⟨t, ran, holds⟩ := runAll_labelPackets (fun k => inRange k.castSucc) flag char 16 0 rfl s
    (labelHolds_labelFlush chars s)
  obtain ⟨lbuf, llen, lpos⟩ := holds.full
  have last : vpsFlag (p 16) = true := by rw [vpsFlag_eq, flagged]; rfl
  refine ⟨t, _, _, ran, lbuf, llen, lpos, exec_decVps_of_le (inRange 16) (p 16) t, rfl, last, ?_⟩
  calc prevLabel (labelStep (vpsFlag (p 16)) (vpsChar (p 16)) t)
      = t.vpsLbuf.toList.take t.vpsLlen.toNat := by rw [prevLabel_labelStep, last, if_pos rfl]
    _ = chars.toList := by rw [lbuf, llen]; exact List.take_of_length_le (by simp)

end Sys2Proof
end

section
/-!
The WSS-625 service (43_wss625.md). Each flag is a field of one bit, each index a wider field, and the fold of the
group-1 nibble is its count of one bits modulo 2.
-/

namespace Sys2Proof.Machine

/-! ### The group-1 parity (R191, R192) -/

/-- The exclusive or is the sum modulo 2. -/
theorem toNat_xor (a b : Bool) : (a ^^ b).toNat = (a.toNat + b.toNat) % 2 := by
  cases a <;> cases b <;> rfl

/-- The fold leaves the exclusive or of the four bits in bit 0. -/
theorem wssParity_getLsbD (g1 : BitVec 4) :
    (wssParity g1).getLsbD 0 = ((g1.getLsbD 0 ^^ g1.getLsbD 2) ^^ (g1.getLsbD 1 ^^ g1.getLsbD 3)) := by
  simp [wssParity]

/-- The folded bit is `popcount(g1) & 1`: both are the sum of the four bits modulo 2. -/
theorem wssParity_toNat (g1 : BitVec 4) : (wssParity g1).toNat = ones g1 % 2 := by
  have bit : (wssParity g1).toNat = ((wssParity g1).getLsbD 0).toNat := by
    rw [← field_bit, ← extractLsb'_toNat_eq_field _ (lo := 0) (n := 1) rfl, BitVec.extractLsb'_eq_self]
  have count : ones g1 =
      (g1.getLsbD 0).toNat + (g1.getLsbD 1).toNat + (g1.getLsbD 2).toNat + (g1.getLsbD 3).toNat := by
    rw [← popcount_eq_ones, popcount, countP_eq_sum_toNat]
    simp [List.range_succ, Nat.add_assoc]
  rw [bit, wssParity_getLsbD, count]
  simp only [toNat_xor]
  omega

theorem wssParityOk_eq (cfg : Config) (g1 : BitVec 4) :
    wssParityOk cfg g1 =
      if cfg.wssParityOddOk then decide (ones g1 % 2 = 1) else decide (ones g1 % 2 = 0) := by
  have sense (k : BitVec 1) : (wssParity g1 == k) = decide (ones g1 % 2 = k.toNat) := by
    rw [← wssParity_toNat, Bool.eq_iff_iff, beq_iff_eq, decide_eq_true_iff, BitVec.toNat_inj]
  rw [wssParityOk, sense, sense]
  rfl

/-! ### The fields (R193 to R195) -/

/-- A flag is a field of one bit that is set. -/
theorem bitOf_eq_decide_field {w : Nat} (v : BitVec w) (i : Nat) : bitOf v i = decide (field v i i = 1) := by
  rw [field_bit, bitOf]
  cases v.getLsbD i <;> rfl

/-- A field differs from zero as a bit vector just when it does as a number. -/
theorem extractLsb'_bne_zero {w : Nat} (v : BitVec w) {lo n hi : Nat} (h : hi + 1 = lo + n) :
    (v.extractLsb' lo n != 0#n) = decide (field v hi lo ≠ 0) := by
  rw [← extractLsb'_toNat_eq_field v h, Bool.eq_iff_iff, bne_iff_ne, decide_eq_true_iff, Ne, ← BitVec.toNat_inj,
    BitVec.toNat_zero]

/-! ### One line (R190, R197) -/

theorem exec_decWss625_of_le {line : Line} (inRange : line.toNat ≤ 1023) (b0 b1 : Byte) (s : State) :
    exec (.decWss625 line b0 b1) s = .next (emit (.wss (wssRecord s.cfg line b0 b1)) s) :=
  withLine_of_le s _ inRange

end Sys2Proof.Machine

namespace Sys2Proof

open Sys2Proof.Machine

/-- Settles O42: the step emits the record and nothing else, and each field of the record is the number the statement
names. -/
theorem wssResult : Obligations.WssResult := by
  intro line b0 b1 s inRange
  have format : b0.extractLsb' 0 3 = BitVec.ofNat 3 (field b0 2 0) := extractLsb'_eq_ofNat_field b0 rfl
  have subtitles : b1.extractLsb' 1 2 = BitVec.ofNat 2 (field b1 2 1) := extractLsb'_eq_ofNat_field b1 rfl
  have openSubtitles : (b1.extractLsb' 1 2 != 0#2) = decide (field b1 2 1 ≠ 0) := extractLsb'_bne_zero b1 rfl
  rw [exec_decWss625_of_le inRange, wssRecord, openSubtitles, format, subtitles, wssParityOk_eq,
    ← BitVec.setWidth_eq_extractLsb' (by decide)]
  simp only [bitOf_eq_decide_field]
  rfl

end Sys2Proof
end

section
/-!
The WSS-CPR1204 service (44_wss_cpr1204.md). A 26-bit vector is a polynomial over GF(2). The division subtracts multiples
of the generator `x^6 + x + 1`, and these are closed under exclusive or; so what a group's remainder is, which groups are
valid and what a changed bit does are questions about which vectors are multiples.
-/

namespace Sys2Proof.Machine

/-! ### Products with the generator (R212) -/

/-- A flip of bit k. -/
theorem flip_getLsbD {w : Nat} (v : BitVec w) {k i : Nat} (hi : i < w) :
    (v ^^^ 1#w <<< k).getLsbD i = (v.getLsbD i ^^ decide (i = k)) := by
  rw [BitVec.getLsbD_xor, ← BitVec.twoPow_eq, BitVec.getLsbD_twoPow]
  grind

/-- The generator shifted by j has the bits j, j + 1 and j + 6. -/
theorem generator_shiftLeft_getLsbD (j : Nat) {i : Nat} (hi : i < 26) :
    (0x43#26 <<< j).getLsbD i = ((decide (i = j) ^^ decide (i = j + 1)) ^^ decide (i = j + 6)) := by
  have bits : ∀ m < 26, (0x43#26).getLsbD m = ((decide (m = 0) ^^ decide (m = 1)) ^^ decide (m = 6)) := by decide
  rw [BitVec.getLsbD_shiftLeft, bits _ (by omega)]
  grind

/-- The product with the terms of q below `x^n`: the fold of `generatorTimes` up to n. -/
def generatorTimesBelow (q : BitVec 20) (n : Nat) : BitVec 26 :=
  (List.range n).foldl (fun acc j => if q.getLsbD j then acc ^^^ (0x43#26 <<< j) else acc) 0

theorem generatorTimesBelow_succ (q : BitVec 20) (n : Nat) :
    generatorTimesBelow q (n + 1) =
      if q.getLsbD n then generatorTimesBelow q n ^^^ (0x43#26 <<< n) else generatorTimesBelow q n := by
  simp [generatorTimesBelow, List.range_succ]

theorem generatorTimes_eq_below (q : BitVec 20) : generatorTimes q = generatorTimesBelow q 20 := rfl

/-- Bit i of `x^c` times the terms of q below `x^n`. -/
def shiftedBit (q : BitVec 20) (n c i : Nat) : Bool := decide (c ≤ i ∧ i < n + c) && q.getLsbD (i - c)

theorem shiftedBit_zero (q : BitVec 20) (c i : Nat) : shiftedBit q 0 c i = false := by
  grind [shiftedBit]

theorem shiftedBit_succ (q : BitVec 20) (n c i : Nat) :
    shiftedBit q (n + 1) c i = (shiftedBit q n c i ^^ (q.getLsbD n && decide (i = n + c))) := by
  grind [shiftedBit]

/-- All terms of q are below `x^20`. -/
theorem shiftedBit_all (q : BitVec 20) (c i : Nat) : shiftedBit q 20 c i = (decide (c ≤ i) && q.getLsbD (i - c)) := by
  grind [shiftedBit]

theorem generatorTimesBelow_getLsbD (q : BitVec 20) (n : Nat) {i : Nat} (hi : i < 26) :
    (generatorTimesBelow q n).getLsbD i = ((shiftedBit q n 0 i ^^ shiftedBit q n 1 i) ^^ shiftedBit q n 6 i) := by
  induction n with
  | zero => simp [generatorTimesBelow, shiftedBit_zero]
  | succ n ih =>
    rw [generatorTimesBelow_succ]
    simp only [shiftedBit_succ]
    cases q.getLsbD n with
    | false => simpa using ih
    | true =>
      rw [if_pos rfl, BitVec.getLsbD_xor, ih, generator_shiftLeft_getLsbD n hi]
      simp only [Bool.true_and, Bool.xor_assoc, Bool.xor_left_comm, Nat.add_zero]

/-- Bit i of the product: the generator has the terms 1, x and x^6. -/
theorem generatorTimes_getLsbD (q : BitVec 20) {i : Nat} (hi : i < 26) :
    (generatorTimes q).getLsbD i =
      ((q.getLsbD i ^^ (decide (1 ≤ i) && q.getLsbD (i - 1))) ^^ (decide (6 ≤ i) && q.getLsbD (i - 6))) := by
  rw [generatorTimes_eq_below, generatorTimesBelow_getLsbD q 20 hi]
  simp only [shiftedBit_all, Nat.zero_le, decide_true, Bool.true_and, Nat.sub_zero]

theorem generatorTimes_xor (p q : BitVec 20) : generatorTimes (p ^^^ q) = generatorTimes p ^^^ generatorTimes q := by
  apply BitVec.eq_of_getLsbD_eq
  intro i hi
  simp only [BitVec.getLsbD_xor, generatorTimes_getLsbD _ hi, Bool.and_xor_distrib_left]
  simp only [Bool.xor_assoc, Bool.xor_left_comm]

theorem generatorTimes_twoPow {j : Nat} (hj : j < 20) : generatorTimes (1#20 <<< j) = 0x43#26 <<< j := by
  apply BitVec.eq_of_getLsbD_eq
  intro i hi
  rw [generatorTimes_getLsbD _ hi, generator_shiftLeft_getLsbD j hi, ← BitVec.twoPow_eq]
  simp only [BitVec.getLsbD_twoPow]
  grind

/-- The degree of a product is six above that of the other factor. -/
theorem getLsbD_eq_false_of_generatorTimes_high {q : BitVec 20} {n : Nat}
    (high : ∀ i, n + 6 ≤ i → i < 26 → (generatorTimes q).getLsbD i = false) (j : Nat) (hj : n ≤ j) :
    q.getLsbD j = false := by
  by_cases top : 20 ≤ j
  · exact BitVec.getLsbD_of_ge q j top
  · have bit := generatorTimes_getLsbD q (i := j + 6) (by omega)
    have h6 := getLsbD_eq_false_of_generatorTimes_high high (j + 6) (by omega)
    have h5 := getLsbD_eq_false_of_generatorTimes_high high (j + 5) (by omega)
    rw [high (j + 6) (by omega) (by omega), h6, Nat.add_sub_cancel, Nat.add_sub_assoc (by decide), h5] at bit
    simpa using bit.symm
termination_by 20 - j

/-- The lowest term of a product is that of the other factor: the generator has a constant term. -/
theorem getLsbD_eq_false_of_generatorTimes_low {q : BitVec 20} {n : Nat} (hn : n ≤ 26)
    (low : ∀ i < n, (generatorTimes q).getLsbD i = false) (j : Nat) (hj : j < n) : q.getLsbD j = false := by
  induction j using Nat.strongRecOn with
  | ind j ih =>
    have bit := generatorTimes_getLsbD q (i := j) (by omega)
    rw [low j hj] at bit
    have h1 : 1 ≤ j → q.getLsbD (j - 1) = false := fun _ => ih (j - 1) (by omega) (by omega)
    have h6 : 6 ≤ j → q.getLsbD (j - 6) = false := fun _ => ih (j - 6) (by omega) (by omega)
    grind

/-! ### Multiples of the generator (R212)

Two vectors are congruent when their exclusive or is a multiple. -/

/-- v is divisible by the generator. -/
def IsMultiple (v : BitVec 26) : Prop := ∃ q, v = generatorTimes q

theorem IsMultiple.xor {u v : BitVec 26} : IsMultiple u → IsMultiple v → IsMultiple (u ^^^ v)
  | ⟨p, hp⟩, ⟨q, hq⟩ => ⟨p ^^^ q, by rw [hp, hq, generatorTimes_xor]⟩

theorem isMultiple_xor_self (v : BitVec 26) : IsMultiple (v ^^^ v) := ⟨0, by rw [BitVec.xor_self]; decide⟩

theorem IsMultiple.trans {u v w : BitVec 26} (huv : IsMultiple (u ^^^ v)) (hvw : IsMultiple (v ^^^ w)) :
    IsMultiple (u ^^^ w) := by
  have both := huv.xor hvw
  rwa [BitVec.xor_assoc, ← BitVec.xor_assoc v, BitVec.xor_self, BitVec.zero_xor] at both

theorem isMultiple_generator {j : Nat} (hj : j < 20) : IsMultiple (0x43#26 <<< j) :=
  ⟨1#20 <<< j, (generatorTimes_twoPow hj).symm⟩

/-- No multiple but zero has degree below six. -/
theorem IsMultiple.eq_zero {v : BitVec 26} (h : IsMultiple v) (small : ∀ i, 6 ≤ i → v.getLsbD i = false) : v = 0 := by
  obtain ⟨q, rfl⟩ := h
  have zero : q = 0 := BitVec.eq_of_getLsbD_eq fun j _ => by
    rw [getLsbD_eq_false_of_generatorTimes_high (n := 0) (fun i hi _ => small i hi) j (Nat.zero_le j)]
    simp
  rw [zero]
  decide

/-- No power of x is a multiple: its one term would be the lowest and the highest of a product (R217). -/
theorem not_isMultiple_twoPow {k : Nat} (hk : k < 26) : ¬ IsMultiple (1#26 <<< k) := by
  rintro ⟨q, hq⟩
  have bit (i : Nat) : (generatorTimes q).getLsbD i = (decide (k < 26) && decide (k = i)) := by
    rw [← hq, ← BitVec.twoPow_eq, BitVec.getLsbD_twoPow]
  have low := getLsbD_eq_false_of_generatorTimes_low (q := q) (n := k) (by omega) fun i hi => by grind
  have high := getLsbD_eq_false_of_generatorTimes_high (q := q) (n := k - 5) fun i hi _ => by grind
  have none (j : Nat) : q.getLsbD j = false := by
    by_cases hj : j < k
    · exact low j hj
    · exact high j (by omega)
  have here := bit k
  rw [generatorTimes_getLsbD q hk, none, none, none] at here
  simp [hk] at here

/-! ### The division (R212) -/

/-- A step of the division subtracts a multiple. -/
theorem isMultiple_xor_cprStep (r : BitVec 26) {j : Nat} (hj : j < 20) : IsMultiple (r ^^^ cprStep r j) := by
  rw [cprStep]
  split
  · rw [← BitVec.xor_assoc, BitVec.xor_self, BitVec.zero_xor]
    exact isMultiple_generator hj
  · exact isMultiple_xor_self r

/-- Step j clears bit j + 6 and writes no bit above it. -/
theorem cprStep_high {r : BitVec 26} {j : Nat} (high : ∀ i, j + 7 ≤ i → r.getLsbD i = false) (i : Nat)
    (hi : j + 6 ≤ i) : (cprStep r j).getLsbD i = false := by
  by_cases top : 26 ≤ i
  · exact BitVec.getLsbD_of_ge _ i top
  · have above : j + 7 ≤ i → r.getLsbD i = false := high i
    rw [cprStep]
    split
    · rw [BitVec.getLsbD_xor, generator_shiftLeft_getLsbD j (by omega)]
      grind
    · grind

/-- The steps n - 1 down to 0 of the division. -/
def cprReduceBelow (n : Nat) (r : BitVec 26) : BitVec 26 := (List.range n).reverse.foldl cprStep r

theorem cprReduceBelow_succ (n : Nat) (r : BitVec 26) :
    cprReduceBelow (n + 1) r = cprReduceBelow n (cprStep r n) := by
  simp [cprReduceBelow, List.range_succ]

theorem cprReduce_eq_below (r : BitVec 26) : cprReduce r = cprReduceBelow 20 r := rfl

theorem isMultiple_xor_cprReduceBelow {n : Nat} (hn : n ≤ 20) (r : BitVec 26) :
    IsMultiple (r ^^^ cprReduceBelow n r) := by
  induction n generalizing r with
  | zero => exact isMultiple_xor_self r
  | succ n ih =>
    rw [cprReduceBelow_succ]
    exact (isMultiple_xor_cprStep r hn).trans (ih (by omega) _)

theorem cprReduceBelow_high {n : Nat} {r : BitVec 26} (high : ∀ i, n + 6 ≤ i → r.getLsbD i = false) (i : Nat)
    (hi : 6 ≤ i) : (cprReduceBelow n r).getLsbD i = false := by
  induction n generalizing r with
  | zero => exact high i (by omega)
  | succ n ih =>
    rw [cprReduceBelow_succ]
    exact ih (cprStep_high fun i hi => high i (by omega))

/-- The division leaves no bit but the six of the remainder. -/
theorem setWidth_cprRem (g : BitVec 20) : (cprRem g).setWidth 26 = cprReduce (0x3F#6 ++ g) := by
  apply BitVec.eq_of_getLsbD_eq
  intro i hi
  rw [cprRem, BitVec.getLsbD_setWidth, BitVec.getLsbD_extractLsb', Nat.zero_add]
  by_cases low : i < 6
  · simp only [hi, low, decide_true, Bool.true_and]
  · rw [cprReduce_eq_below, cprReduceBelow_high (fun i hi => BitVec.getLsbD_of_ge _ i hi) i (by omega), Bool.and_false,
      Bool.and_false]

/-- Six-bit values that differ by a multiple are equal. -/
theorem eq_of_isMultiple_xor {a b : BitVec 6} (h : IsMultiple (a.setWidth 26 ^^^ b.setWidth 26)) : a = b := by
  have zero : a.setWidth 26 ^^^ b.setWidth 26 = 0 := h.eq_zero fun i hi => by
    rw [← BitVec.setWidth_xor, BitVec.getLsbD_setWidth, BitVec.getLsbD_of_ge _ i hi, Bool.and_false]
  simpa using congrArg (BitVec.setWidth 6) (BitVec.xor_eq_zero_iff.mp zero)

/-- The remainder is the one six-bit value congruent to the padded group. -/
theorem isMultiple_xor_iff_eq_cprRem (g : BitVec 20) (rem : BitVec 6) :
    IsMultiple ((0x3F#6 ++ g) ^^^ rem.setWidth 26) ↔ rem = cprRem g := by
  have divided : IsMultiple ((0x3F#6 ++ g) ^^^ (cprRem g).setWidth 26) := by
    rw [setWidth_cprRem]
    exact isMultiple_xor_cprReduceBelow (Nat.le_refl 20) _
  constructor
  · intro h
    rw [BitVec.xor_comm] at h
    exact eq_of_isMultiple_xor (h.trans divided)
  · rintro rfl
    exact divided

/-- A group is valid when it is a multiple below its six one bits (R213). -/
theorem cprRem_eq_zero_iff (g : BitVec 20) : cprRem g = 0 ↔ IsMultiple (0x3F#6 ++ g) := by
  rw [eq_comm, ← isMultiple_xor_iff_eq_cprRem, BitVec.ofNat_eq_ofNat, BitVec.setWidth_zero, BitVec.xor_zero]

theorem exists_isRemainder_iff (g : BitVec 20) (rem : BitVec 6) :
    (∃ q, isRemainder g q rem) ↔ IsMultiple ((0x3F#6 ++ g) ^^^ rem.setWidth 26) := by
  refine exists_congr fun q => ?_
  rw [isRemainder]
  constructor
  · intro h
    rw [h, BitVec.xor_assoc, BitVec.xor_self, BitVec.xor_zero]
  · intro h
    rw [← h, BitVec.xor_assoc, BitVec.xor_self, BitVec.xor_zero]

/-! ### Valid groups (R213, R214, R217) -/

/-- The check bits of a group are added to it. -/
theorem padded_checkBits (pay : BitVec 14) (c : BitVec 6) :
    0x3F#6 ++ (pay ++ c) = (0x3F#6 ++ (pay ++ 0#6)) ^^^ c.setWidth 26 := by
  apply BitVec.eq_of_getLsbD_eq
  intro i hi
  grind [BitVec.getLsbD_setWidth]

theorem padded_flip (g : BitVec 20) {k : Nat} (hk : k < 20) :
    0x3F#6 ++ (g ^^^ 1#20 <<< k) = (0x3F#6 ++ g) ^^^ 1#26 <<< k := by
  apply BitVec.eq_of_getLsbD_eq
  intro i hi
  rw [flip_getLsbD _ hi]
  grind [flip_getLsbD]

/-- Flipping bit k adds `x^k`, which is no multiple: a valid group becomes invalid (R217). -/
theorem cprRem_flip_ne_zero {g : BitVec 20} {k : Nat} (hk : k < 20) (valid : cprRem g = 0) :
    cprRem (g ^^^ 1#20 <<< k) ≠ 0 := by
  intro flipped
  rw [cprRem_eq_zero_iff] at valid flipped
  have power := valid.xor flipped
  rw [padded_flip g hk, ← BitVec.xor_assoc, BitVec.xor_self, BitVec.zero_xor] at power
  exact not_isMultiple_twoPow (by omega) power

/-! ### The group of three bytes (R211, R216) -/

theorem cprGroup_getLsbD (b0 b1 b2 : Byte) {i : Nat} (hi : i < 20) :
    (cprGroup b0 b1 b2).getLsbD i =
      ((decide (12 ≤ i) && b0.getLsbD (i - 12)) || (decide (4 ≤ i) && b1.getLsbD (i - 4)) || b2.getLsbD i) := by
  have shifted (j : Nat) : i - j < 20 := by omega
  simp only [cprGroup, BitVec.getLsbD_or, BitVec.getLsbD_shiftLeft, BitVec.getLsbD_setWidth, hi, shifted, decide_true,
    Bool.true_and, ← Nat.not_lt, decide_not]

/-- p[0] is alone in bits 19..12. -/
theorem cprGroup_flip_b0 (b0 b1 b2 : Byte) {k : Nat} (hk : k < 8) :
    cprGroup (b0 ^^^ 1#8 <<< k) b1 b2 = cprGroup b0 b1 b2 ^^^ 1#20 <<< (k + 12) := by
  apply BitVec.eq_of_getLsbD_eq
  intro i hi
  rw [flip_getLsbD _ hi, cprGroup_getLsbD _ _ _ hi, cprGroup_getLsbD _ _ _ hi]
  grind [flip_getLsbD]

/-- A flip of a bit of p[1] reaches the group unless p[2] has set the same group bit. -/
theorem cprGroup_flip_b1 (b0 b1 b2 : Byte) {k : Nat} (hk : k < 8) :
    cprGroup b0 (b1 ^^^ 1#8 <<< k) b2 =
      if b2.getLsbD (k + 4) then cprGroup b0 b1 b2 else cprGroup b0 b1 b2 ^^^ 1#20 <<< (k + 4) := by
  apply BitVec.eq_of_getLsbD_eq
  intro i hi
  rw [apply_ite (BitVec.getLsbD · i), flip_getLsbD _ hi, cprGroup_getLsbD _ _ _ hi, cprGroup_getLsbD _ _ _ hi]
  grind [flip_getLsbD]

/-- A flip of a bit of p[2] reaches the group unless p[1] has set the same group bit. -/
theorem cprGroup_flip_b2 (b0 b1 b2 : Byte) {k : Nat} (hk : k < 8) :
    cprGroup b0 b1 (b2 ^^^ 1#8 <<< k) =
      if decide (4 ≤ k) && b1.getLsbD (k - 4) then cprGroup b0 b1 b2 else cprGroup b0 b1 b2 ^^^ 1#20 <<< k := by
  apply BitVec.eq_of_getLsbD_eq
  intro i hi
  rw [apply_ite (BitVec.getLsbD · i), flip_getLsbD _ hi, cprGroup_getLsbD _ _ _ hi, cprGroup_getLsbD _ _ _ hi]
  grind [flip_getLsbD]

theorem cprGroup_or_overlap (b0 b1 b2 : Byte) : cprGroup b0 b1 (b2 ||| b1 <<< 4) = cprGroup b0 b1 b2 := by
  apply BitVec.eq_of_getLsbD_eq
  intro i hi
  rw [cprGroup_getLsbD _ _ _ hi, cprGroup_getLsbD _ _ _ hi, BitVec.getLsbD_or, BitVec.getLsbD_shiftLeft]
  grind

theorem cprGroup_eq_ofNat (b0 b1 b2 : Byte) :
    cprGroup b0 b1 b2 = BitVec.ofNat 20 ((b0.toNat <<< 12) ||| (b1.toNat <<< 4) ||| b2.toNat) := by
  apply BitVec.eq_of_getLsbD_eq
  intro i hi
  rw [cprGroup_getLsbD _ _ _ hi, BitVec.getLsbD_ofNat, Nat.testBit_or, Nat.testBit_or, Nat.testBit_shiftLeft,
    Nat.testBit_shiftLeft]
  simp only [BitVec.testBit_toNat, hi, decide_true, Bool.true_and, ge_iff_le]

/-! ### One line (R210, R215) -/

theorem exec_decCpr1204_of_le {line : Line} (inRange : line.toNat ≤ 1023) (b0 b1 b2 : Byte) (s : State) :
    exec (.decCpr1204 line b0 b1 b2) s = .next (emit (.wssCpr (cprRecord line b0 b1 b2)) s) :=
  withLine_of_le s _ inRange

/-- The record reads the payload through the group. -/
theorem cprRecord_congr (line : Line) {a0 a1 a2 b0 b1 b2 : Byte} (same : cprGroup a0 a1 a2 = cprGroup b0 b1 b2) :
    cprRecord line a0 a1 a2 = cprRecord line b0 b1 b2 := by
  rw [cprRecord, cprRecord, same]

theorem cprRecord_crcOk_eq_true_iff (line : Line) (b0 b1 b2 : Byte) :
    (cprRecord line b0 b1 b2).crcOk = true ↔ cprRem (cprGroup b0 b1 b2) = 0 :=
  beq_iff_eq

/-- A payload change that flips a bit of the group is detected. -/
theorem crcOk_eq_false_of_flip {line : Line} {a0 a1 a2 b0 b1 b2 : Byte} {k : Nat} (hk : k < 20)
    (valid : (cprRecord line b0 b1 b2).crcOk = true) (flip : cprGroup a0 a1 a2 = cprGroup b0 b1 b2 ^^^ 1#20 <<< k) :
    (cprRecord line a0 a1 a2).crcOk = false := by
  rw [cprRecord_crcOk_eq_true_iff] at valid
  rw [← Bool.not_eq_true, cprRecord_crcOk_eq_true_iff, flip]
  exact cprRem_flip_ne_zero hk valid

/-- A payload change that flips a bit of the group under a condition only is detected just then. -/
theorem crcOk_eq_false_iff_of_masked {line : Line} {a0 a1 a2 b0 b1 b2 : Byte} {k : Nat} {masked : Bool} (hk : k < 20)
    (valid : (cprRecord line b0 b1 b2).crcOk = true)
    (flip : cprGroup a0 a1 a2 = if masked then cprGroup b0 b1 b2 else cprGroup b0 b1 b2 ^^^ 1#20 <<< k) :
    (cprRecord line a0 a1 a2).crcOk = false ↔ masked = false := by
  cases masked with
  | false => simpa using crcOk_eq_false_of_flip hk valid flip
  | true => rw [cprRecord_congr line flip, valid]

end Sys2Proof.Machine

namespace Sys2Proof

open Sys2Proof.Machine

/-! ### The statements -/

/-- Settles O44: the values left by taking away a multiple are the remainders of the division, and there is one. -/
theorem remainderIsUnique : Obligations.RemainderIsUnique := fun g rem =>
  (exists_isRemainder_iff g rem).trans (isMultiple_xor_iff_eq_cprRem g rem)

/-- Settles O43: the step emits the record and nothing else, and its remainder is that of some quotient by
`remainderIsUnique`. -/
theorem cprResult : Obligations.CprResult := by
  intro line b0 b1 b2 s inRange
  obtain ⟨q, isRem⟩ := (remainderIsUnique (cprGroup b0 b1 b2) _).mpr rfl
  have group : (cprGroup b0 b1 b2).extractLsb' 6 14 = BitVec.ofNat 14 (field (cprGroup b0 b1 b2) 19 6) :=
    extractLsb'_eq_ofNat_field _ rfl
  refine ⟨cprGroup b0 b1 b2, q, cprRem (cprGroup b0 b1 b2), cprGroup_eq_ofNat b0 b1 b2, isRem, ?_⟩
  rw [exec_decCpr1204_of_le inRange, cprRecord, group]
  rfl

/-- Settles O45: adding the check bits c to the padded payload and comparing c with its remainder ask for the same
multiple. -/
theorem validGroups : Obligations.ValidGroups := by
  refine ⟨fun pay c => ?_, by decide +kernel⟩
  rw [cprRem_eq_zero_iff, padded_checkBits, isMultiple_xor_iff_eq_cprRem]

/-- Settles O46: a flipped bit of the group makes it invalid, and a flipped payload bit flips one group bit or, where
the other byte covers it, none. -/
theorem singleBitErrors : Obligations.SingleBitErrors := by
  refine ⟨fun g k hk valid => cprRem_flip_ne_zero hk valid, fun line b0 b1 b2 valid k hk => ⟨?_, ?_, ?_, ?_, ?_⟩⟩
  · exact crcOk_eq_false_of_flip (by omega) valid (cprGroup_flip_b0 b0 b1 b2 hk)
  · intro high
    have alone : b2.getLsbD (k + 4) = false := BitVec.getLsbD_of_ge b2 _ (by omega)
    exact (crcOk_eq_false_iff_of_masked (by omega) valid (cprGroup_flip_b1 b0 b1 b2 hk)).mpr alone
  · intro low
    have alone : (decide (4 ≤ k) && b1.getLsbD (k - 4)) = false := by simp [low]
    exact (crcOk_eq_false_iff_of_masked (by omega) valid (cprGroup_flip_b2 b0 b1 b2 hk)).mpr alone
  · intro _
    exact crcOk_eq_false_iff_of_masked (by omega) valid (cprGroup_flip_b1 b0 b1 b2 hk)
  · intro low
    have flip := cprGroup_flip_b2 b0 b1 b2 (k := k + 4) (by omega)
    rw [decide_eq_true (Nat.le_add_left 4 k), Bool.true_and, Nat.add_sub_cancel] at flip
    exact crcOk_eq_false_iff_of_masked (by omega) valid flip

/-- Settles O47: the outcome depends on the group alone, and group bit 4 + k is the or of the two payload bits. -/
theorem cprOverlap : Obligations.CprOverlap := by
  intro line b0 b1 b2 s
  constructor
  · have record := cprRecord_congr line (cprGroup_or_overlap b0 b1 b2)
    exact congrArg (fun r => withLine line s (.next (emit (.wssCpr r) s))) record
  · intro k hk
    have notB0 : ¬ 12 ≤ k + 4 := by omega
    rw [cprGroup_getLsbD b0 b1 b2 (by omega), decide_eq_false notB0, Nat.add_sub_cancel]
    simp

end Sys2Proof
end

section
/-!
The Teletext address (45_ttx_addressing.md). An address is read as two numbers, its magazine and its packet. Packet
8/30 is the address 0xF0 alone, which is also the one address of the packets 30 and 31 with channel 0. So the rows of
the decoder are the cases of R230, and the IDL interpreter is never run on channel 0.
-/

namespace Sys2Proof.Machine

/-! ### The address and the data as the statements write them (R233, R234, R238) -/

theorem ttxPacket_eq_ofNat (a : BitVec 8) : ttxPacket a = BitVec.ofNat 5 (field a 7 3) :=
  extractLsb'_eq_ofNat_field a rfl

/-- A value of `A[2:0]` is its number, and 0 is read as 8. -/
theorem ttxMagazine_eq_ofNat (a : BitVec 8) : ttxMagazine a = BitVec.ofNat 4 (magazineOf a) := by
  have low : (a.extractLsb' 0 3).toNat = field a 2 0 := extractLsb'_toNat_eq_field a rfl
  rw [magazineOf, apply_ite (BitVec.ofNat 4), ttxMagazine, zero_append_eq_ofNat, low]
  refine if_congr ?_ rfl rfl
  rw [← BitVec.toNat_inj, low]
  rfl

/-- The packet comparison of the opcode table, over numbers. -/
theorem thirty_le_ttxPacket_iff (a : BitVec 8) : 30 ≤ ttxPacket a ↔ 30 ≤ field a 7 3 := by
  have packet : (ttxPacket a).toNat = field a 7 3 := extractLsb'_toNat_eq_field a rfl
  rw [← packet]
  exact BitVec.le_def

/-- The three fields of an address as quotients and remainders of its number. -/
theorem address_fields (a : BitVec 8) :
    field a 2 0 = a.toNat % 8 ∧ field a 3 0 = a.toNat % 16 ∧ field a 7 3 = a.toNat / 8 := by
  have lt := a.isLt
  simp only [field]
  omega

theorem magazineOf_eq_eight_iff (a : BitVec 8) : magazineOf a = 8 ↔ a.toNat % 8 = 0 := by
  obtain ⟨low, -, -⟩ := address_fields a
  rw [magazineOf, low]
  split <;> omega

/-- The address of packet 8/30 (R236). -/
theorem magazineOf_packet_830_iff (a : BitVec 8) : magazineOf a = 8 ∧ field a 7 3 = 30 ↔ a = 0xF0 := by
  obtain ⟨-, -, packet⟩ := address_fields a
  rw [magazineOf_eq_eight_iff, packet]
  bv_omega

/-- Of the packets 30 and 31, only 8/30 has the four low address bits zero (R238). -/
theorem channel_eq_zero_iff {a : BitVec 8} (idl : 30 ≤ field a 7 3) : field a 3 0 = 0 ↔ a = 0xF0 := by
  obtain ⟨-, channel, packet⟩ := address_fields a
  rw [packet] at idl
  rw [channel]
  bv_omega

theorem ttxData_eq_afterAddress (p : Payload) : ttxData p = afterAddress p := by
  apply Vector.ext
  intro i hi
  have shifted : (ttxData p)[i] = p[2 + i] := Vector.getElem_drop ..
  simp [shifted, afterAddress, Nat.add_comm]

/-- The two address bytes as they stand in `aux` (R232). -/
theorem bytes_append (b0 b1 : Byte) : b0 ++ b1 = BitVec.ofNat 16 (256 * b0.toNat + b1.toNat) := by
  apply BitVec.eq_of_toNat_eq
  rw [append_toNat, BitVec.toNat_ofNat]
  omega

/-! ### The row of an address (R230) -/

/-- The Teletext step is the row its payload decodes to: the masks of the opcode table are the cases of R230. -/
theorem exec_decodeTtxaddr (line : Line) (p : Payload) (s : State) :
    exec (decodeTtxaddr s.cfg line p) s = runTeletext line p s := by
  rw [decodeTtxaddr_eq, runTeletext]
  cases unham16 s.cfg p[0] p[1] with
  | none => rfl
  | some a =>
    obtain ⟨-, is830, isIdl⟩ := ttxRows a
    simp only [is830, isIdl]
    split
    · rfl
    · split <;> rfl

/-! ### No record of channel 0 (R238, 46_idl.md R253) -/

/-- Every record but `Malformed(Channel0)`. -/
def notChannel0 : Record → Prop
  | .idl _ _ _ _ (.malformed .channel0 _ _) _ => False
  | _ => True

section

variable (line : Line) (a : BitVec 8) (p : Payload) (s : State)

theorem runDatavideo_notChannel0 : Serves s notChannel0 (runDatavideo line a p s) := by
  unfold runDatavideo
  split <;> exact serves_emit trivial

theorem execIdlSpa_notChannel0 (ft ial : BitVec 4) : Serves s notChannel0 (execIdlSpa line a ft ial p s) := by
  unfold execIdlSpa
  split <;> exact serves_emit trivial

theorem execIdlFormatA_notChannel0 (ft : BitVec 4) : Serves s notChannel0 (execIdlFormatA line a ft p s) := by
  unfold execIdlFormatA
  split
  · exact serves_emit trivial
  · split
    · exact serves_emit trivial
    · exact execIdlSpa_notChannel0 line a p s ft _

theorem execIdlFormatB_notChannel0 (ft : BitVec 4) : Serves s notChannel0 (execIdlFormatB line a ft p s) := by
  unfold execIdlFormatB
  split <;> exact serves_emit trivial

theorem runFormatted_notChannel0 : Serves s notChannel0 (runFormatted line a p s) := by
  unfold runFormatted
  split
  · exact serves_emit trivial
  · split
    · exact execIdlFormatA_notChannel0 line a p s _
    · split
      · exact execIdlFormatB_notChannel0 line a p s _
      · exact serves_emit trivial

/-- Only the first case of R250 emits the record, and it is the case of channel 0. -/
theorem runIdl_notChannel0 (other : idlChannel a ≠ 0) : Serves s notChannel0 (runIdl line a p s) := by
  unfold runIdl
  extract_lets ch
  rw [if_neg other]
  split; · exact runDatavideo_notChannel0 line a p s
  split; · exact runDatavideo_notChannel0 line a p s
  split; · exact runFormatted_notChannel0 line a p s
  split; · exact runFormatted_notChannel0 line a p s
  split; · exact serves_emit trivial
  split <;> exact serves_emit trivial

end

/-- An address that reaches the IDL interpreter has another channel. -/
theorem idlChannel_ne_zero {a : BitVec 8} (idl : ttxPacket a = 30 ∨ ttxPacket a = 31)
    (not830 : ¬ (ttxMagazine a = 8 ∧ ttxPacket a = 30)) : idlChannel a ≠ 0 := by
  obtain ⟨-, is830, isIdl⟩ := ttxRows a
  have channel : (idlChannel a).toNat = field a 3 0 := extractLsb'_toNat_eq_field a rfl
  have high : 30 ≤ field a 7 3 := (thirty_le_ttxPacket_iff a).mp (isIdl.mp idl)
  rwa [is830, ← channel_eq_zero_iff high, ← channel, ← BitVec.toNat_zero (w := 4), BitVec.toNat_inj] at not830

theorem runTeletext_notChannel0 (line : Line) (p : Payload) (s : State) :
    Serves s notChannel0 (runTeletext line p s) := by
  unfold runTeletext
  split
  · exact serves_emit trivial
  · split; · exact serves_emit trivial
    next not830 =>
    split
    · next idl => exact runIdl_notChannel0 line _ p s (idlChannel_ne_zero idl not830)
    · exact serves_emit trivial

end Sys2Proof.Machine

namespace Sys2Proof

open Sys2Proof.Machine

/-! ### The statements -/

/-- Settles O49: the Teletext step is the row its payload decodes to, and the tests of the row are on numbers. -/
theorem teletextRunsItsRow : Obligations.TeletextRunsItsRow := by
  intro line p s inRange
  obtain ⟨t, ran⟩ := (runTeletext_serves line p s).total
  refine ⟨decodeTtxaddr s.cfg line p, t, rfl, (exec_decodeTtxaddr line p s).trans ran,
    (withLine_of_le s _ inRange).trans ran, ?_⟩
  rw [decodeTtxaddr_eq]
  cases unham16 s.cfg p[0] p[1] with
  | none => rfl
  | some a => simp only [magazineOf_packet_830_iff, thirty_le_ttxPacket_iff]

/-- Settles O53: the address 8/30 is taken before the IDL interpreter, whose other channels give other records; the line
check of DEC.TTX answers with an error record. -/
theorem channelZeroUnreachable : Obligations.ChannelZeroUnreachable := by
  refine ⟨fun a idl => channel_eq_zero_iff idl, fun line l p s t m k c ft ial d ran emitted => ?_⟩
  rcases withLine_next ran with ⟨-, served⟩ | ⟨-, rfl⟩
  · obtain ⟨u, r, next, answered, other⟩ := (runTeletext_notChannel0 line p s).record
    cases next.symm.trans served
    cases answered.symm.trans emitted
    exact other
  · cases emitted

/-- Settles O50: no row branches, and the parts of each record are the numbers and the bytes the statement names. -/
theorem teletextResults : Obligations.TeletextResults := by
  intro line p b0 b1 a s
  refine ⟨fun _ => ?_, ?_, fun _ => ?_⟩
  · rw [← bytes_append]
    rfl
  · rw [← ttxData_eq_afterAddress]
    rfl
  · rw [← ttxMagazine_eq_ofNat, ← ttxPacket_eq_ofNat, ← ttxData_eq_afterAddress]
    rfl

end Sys2Proof
end

section
/-!
The IDL channel multiplexer (46_idl.md). Its decoder rows are the cases of R250 over the channel as a number, and those
of R256 and R258 over the format type and the address length. What is left is the Hamming decode of a run of bytes: it
fails when one byte fails, and else gives the number whose hexadecimal digits the nibbles are.
-/

namespace Sys2Proof.Machine

/-! ### The record of an IDL packet as the statements write it (R250) -/

theorem idlChannel_toNat (a : BitVec 8) : (idlChannel a).toNat = field a 3 0 := extractLsb'_toNat_eq_field a rfl

theorem idlChannel_eq_iff (a : BitVec 8) (ch : BitVec 4) : idlChannel a = ch ↔ field a 3 0 = ch.toNat := by
  rw [← idlChannel_toNat, BitVec.toNat_inj]

theorem idlRecord_eq_idlOf (line : Line) (a : BitVec 8) (p : Payload) (sub : IdlKind) :
    idlRecord line a p sub = idlOf line a p sub := by
  have channel : idlChannel a = BitVec.ofNat 4 (field a 3 0) := extractLsb'_eq_ofNat_field a rfl
  rw [idlRecord, ttxMagazine_eq_ofNat, ttxPacket_eq_ofNat, channel, ttxData_eq_afterAddress, idlOf]

/-- A row that passes the payload through: the record, and nothing else. -/
theorem emit_idlRecord (line : Line) (a : BitVec 8) (p : Payload) (sub : IdlKind) (s : State) :
    emit (idlRecord line a p sub) s = { s with rsp := some (idlOf line a p sub), rdata := none } := by
  rw [idlRecord_eq_idlOf, emit]

/-- A byte that does not decode: the Error record with the address in `aux`, and nothing else (R262). -/
theorem idlHammingError_eq (line : Line) (a : BitVec 8) (site : BitVec 4) (s : State) :
    idlHammingError line a site s =
      { s with rsp := some (.error line .hammingError site (BitVec.ofNat 16 a.toNat)), rdata := none } := by
  rw [idlHammingError, softError, emit, BitVec.ofNat_toNat]

/-! ### The row of a channel (R251, R252) -/

/-- The IDL interpreter is the row its channel decodes to. -/
theorem exec_decodeIdlch (line : Line) (a : BitVec 8) (p : Payload) (s : State) :
    exec (decodeIdlch s.cfg line a p) s = runIdl line a p s := by
  simp only [decodeIdlch_eq, exec_ite]
  rfl

theorem decodeIdlch_eq_field (cfg : Config) (line : Line) (a : BitVec 8) (p : Payload) :
    decodeIdlch cfg line a p =
      if field a 3 0 = 0 then .idlCh0 line a p
      else if field a 3 0 = 5 ∨ field a 3 0 = 13 then .idlDatavideo5or13 line a p
      else if field a 3 0 = 6 ∨ field a 3 0 = 14 then .idlDatavideo6or14 line a p
      else if field a 3 0 = 8 ∨ field a 3 0 = 9 ∨ field a 3 0 = 10 ∨ field a 3 0 = 11 then .idlFormatted8to11 line a p
      else if field a 3 0 = 15 then .idlFormatted15 line a p
      else if field a 3 0 = 4 ∨ field a 3 0 = 12 then .idlLbra4or12 line a p
      else if field a 3 0 = 7 ∧ cfg.idlCh7Lbra = true then .idlLbra7 line a p
      else .idlUnclassified line a p := by
  simp only [decodeIdlch_eq, idlChannel_eq_iff, BitVec.reduceToNat]

/-! ### The row of a format type and of an address length (R256, R258) -/

theorem decodeIdlft_eq_toNat (line : Line) (a : BitVec 8) (ft : BitVec 4) (p : Payload) :
    decodeIdlft line a ft p =
      if ft.toNat % 2 = 0 then .idlFormatA line a ft p
      else if ft.toNat % 4 = 1 then .idlFormatB line a ft p
      else .idlFtOther line a ft p := by
  have even : ft.getLsbD 0 = false ↔ ft.toNat % 2 = 0 := by
    rw [← BitVec.testBit_toNat, Nat.testBit_zero, decide_eq_false_iff_not]
    omega
  have low : ft.extractLsb' 0 2 = 1 ↔ ft.toNat % 4 = 1 := by
    simp [← BitVec.toNat_inj]
  simp only [decodeIdlft_eq, even, low]

theorem idlSpaLength_toNat (ial : BitVec 4) : (idlSpaLength ial).toNat = field ial 2 0 :=
  extractLsb'_toNat_eq_field ial rfl

theorem idlSpaLength_eq_seven_iff (ial : BitVec 4) : idlSpaLength ial = 7 ↔ field ial 2 0 = 7 := by
  rw [← idlSpaLength_toNat, ← BitVec.toNat_inj]
  rfl

section

variable {line : Line} {a : BitVec 8} {ft ial ai : BitVec 4} {p : Payload} {s : State}

theorem runFormatted_of_none (failed : unham8 s.cfg p[2] = none) :
    runFormatted line a p s = .next (idlHammingError line a 3 s) := by
  rw [runFormatted, failed]

/-- A formatted packet runs the row its format type decodes to. -/
theorem runFormatted_of_some (decoded : unham8 s.cfg p[2] = some ft) :
    runFormatted line a p s = exec (decodeIdlft line a ft p) s := by
  simp only [runFormatted, decoded, decodeIdlft_eq, exec_ite]
  rfl

theorem execIdlFormatA_of_none (failed : unham8 s.cfg p[3] = none) :
    execIdlFormatA line a ft p s = .next (idlHammingError line a 4 s) := by
  rw [execIdlFormatA, failed]

/-- A Format A packet runs the row its address length decodes to. -/
theorem execIdlFormatA_of_some (decoded : unham8 s.cfg p[3] = some ial) :
    execIdlFormatA line a ft p s = exec (decodeIdlial line a ft ial p) s := by
  simp only [execIdlFormatA, decoded, decodeIdlial_eq, exec_ite]
  rfl

theorem execIdlFormatB_of_none (failed : unham8 s.cfg p[3] = none) :
    execIdlFormatB line a ft p s = .next (idlHammingError line a 6 s) := by
  rw [execIdlFormatB, failed]

theorem execIdlFormatB_of_some (decoded : unham8 s.cfg p[3] = some ai) :
    execIdlFormatB line a ft p s = .next (emit (idlRecord line a p (.formatB ft (ft.extractLsb' 2 2) ai)) s) := by
  rw [execIdlFormatB, decoded]

end

/-! ### A run of Hamming bytes (R255, R257) -/

/-- The decode of a run is that of each byte. -/
theorem unhamAll_eq_some_iff {cfg : Config} {bs : List Byte} {ns : List (BitVec 4)} :
    unhamAll cfg bs = some ns ↔ bs.map (unham8 cfg) = ns.map some := by
  induction bs generalizing ns with
  | nil => cases ns <;> simp [unhamAll]
  | cons b bs ih =>
    cases ns with
    | nil => rw [unhamAll]; split <;> simp
    | cons n ns =>
      rw [List.map_cons, List.map_cons, List.cons.injEq, ← ih, unhamAll]
      split <;> grind

/-- One byte that is not correctable is enough. -/
theorem unhamAll_eq_none_of_mem {cfg : Config} {bs : List Byte} {b : Byte} (hb : b ∈ bs)
    (failed : unham8 cfg b = none) : unhamAll cfg bs = none := by
  rw [Option.eq_none_iff_forall_ne_some]
  intro ns decoded
  have there : unham8 cfg b ∈ bs.map (unham8 cfg) := List.mem_map_of_mem hb
  rw [unhamAll_eq_some_iff.mp decoded, failed] at there
  simp at there

/-- The first nibble stands below the others. -/
theorem nibbleSum_cons (n : BitVec 4) (ns : List (BitVec 4)) :
    nibbleSum (n :: ns) = nibbleSum ns <<< 4 ||| n.toNat := by
  rw [← Nat.shiftLeft_add_eq_or_of_lt n.isLt, Nat.shiftLeft_eq, nibbleSum]
  omega

theorem nibblesValue_eq_ofNat (w : Nat) (ns : List (BitVec 4)) :
    nibblesValue w ns = BitVec.ofNat w (nibbleSum ns) := by
  induction ns with
  | nil => rfl
  | cons n ns ih =>
    apply BitVec.eq_of_getLsbD_eq
    intro i hi
    have below : i - 4 < w := by omega
    rw [nibblesValue, ih, nibbleSum_cons]
    simp only [BitVec.getLsbD_or, BitVec.getLsbD_shiftLeft, BitVec.getLsbD_setWidth, BitVec.getLsbD_ofNat,
      Nat.testBit_or, Nat.testBit_shiftLeft, BitVec.testBit_toNat, hi, below, decide_true, Bool.true_and]
    grind

/-! ### The packet address and the service packet address -/

/-- The bytes of the service packet address, by their number (R257). -/
theorem idlSpaBytes_eq_map_range (p : Payload) {sl : BitVec 3} (h : sl.toNat ≤ 6) :
    idlSpaBytes p sl = (List.range sl.toNat).map fun k => p.toList.getD (4 + k) 0 := by
  have six : [p[4], p[5], p[6], p[7], p[8], p[9]] = (List.range 6).map fun k => p.toList.getD (4 + k) 0 := by
    simp [List.range_succ]
  rw [idlSpaBytes, six, ← List.map_take, List.take_range, Nat.min_eq_left h]

section

variable {line : Line} {a : BitVec 8} {ft ial : BitVec 4} {p : Payload} {s : State}

theorem runDatavideo_of_none {b : Byte} (hb : b ∈ [p[3], p[4], p[5]]) (failed : unham8 s.cfg b = none) :
    runDatavideo line a p s = .next (idlHammingError line a 2 s) := by
  rw [runDatavideo, unhamAll_eq_none_of_mem hb failed]

theorem runDatavideo_of_some {ns : List (BitVec 4)}
    (decoded : [p[3], p[4], p[5]].map (unham8 s.cfg) = ns.map some) :
    runDatavideo line a p s = .next (emit (idlRecord line a p (.datavideo (BitVec.ofNat 12 (nibbleSum ns)))) s) := by
  rw [runDatavideo, unhamAll_eq_some_iff.mpr decoded, ← nibblesValue_eq_ofNat]

theorem execIdlSpa_of_none {b : Byte} (hb : b ∈ idlSpaBytes p (idlSpaLength ial))
    (failed : unham8 s.cfg b = none) :
    execIdlSpa line a ft ial p s = .next (idlHammingError line a 5 s) := by
  rw [execIdlSpa, unhamAll_eq_none_of_mem hb failed]

theorem execIdlSpa_of_some {ns : List (BitVec 4)}
    (decoded : (idlSpaBytes p (idlSpaLength ial)).map (unham8 s.cfg) = ns.map some) :
    execIdlSpa line a ft ial p s =
      .next (emit (idlRecord line a p (.formatA ft ial (idlSpaLength ial) (BitVec.ofNat 24 (nibbleSum ns)))) s) := by
  rw [execIdlSpa, unhamAll_eq_some_iff.mpr decoded, ← nibblesValue_eq_ofNat]

end

end Sys2Proof.Machine

namespace Sys2Proof

open Sys2Proof.Machine

/-! ### The statements -/

/-- Settles O51: the interpreter is the row its channel decodes to, and the channel classes do not meet. -/
theorem idlRunsItsRow : Obligations.IdlRunsItsRow := by
  intro line a p s
  obtain ⟨t, ran⟩ := (runIdl_serves line a p s).total
  refine ⟨decodeIdlch s.cfg line a p, t, rfl, (exec_decodeIdlch line a p s).trans ran, ran, ?_⟩
  rw [decodeIdlch_eq_field]
  generalize field a 3 0 = ch
  simp only [List.mem_cons, List.not_mem_nil, or_false]
  refine ⟨fun h => ?_, fun h => ?_, fun h => ?_, fun h => ?_, fun h => ?_, fun h => ?_, fun h => ?_, fun h => ?_⟩
  · rw [if_pos h]
  · rw [if_neg (by omega), if_pos h]
  · rw [if_neg (by omega), if_neg (by omega), if_pos h]
  · rw [if_neg (by omega), if_neg (by omega), if_neg (by omega), if_pos h]
  · rw [if_neg (by omega), if_neg (by omega), if_neg (by omega), if_neg (by omega), if_pos h]
  · rw [if_neg (by omega), if_neg (by omega), if_neg (by omega), if_neg (by omega), if_neg (by omega), if_pos h]
  · subst h
    simp
  · rcases h with rfl | rfl | rfl <;> simp

/-- Settles O54: both rows are `runDatavideo`, which decodes the three bytes as a run. -/
theorem datavideoResult : Obligations.DatavideoResult := by
  intro line a p s i row
  have same : exec i s = runDatavideo line a p s := by
    rcases row with ⟨-, rfl⟩ | ⟨-, rfl⟩ <;> rfl
  rw [same, ← idlHammingError_eq]
  constructor
  · rintro (failed | failed | failed) <;> exact runDatavideo_of_none (by simp) failed
  · intro n0 n1 n2 h0 h1 h2
    have decoded : [p[3], p[4], p[5]].map (unham8 s.cfg) = [n0, n1, n2].map some := by simp [h0, h1, h2]
    have value : nibbleSum [n0, n1, n2] = n0.toNat + 16 * n1.toNat + 256 * n2.toNat := by
      simp only [nibbleSum]
      omega
    rw [runDatavideo_of_some decoded, value, emit_idlRecord]

/-- Settles O55: both rows are `runFormatted`, which runs the row of the format type. -/
theorem formattedRunsItsRow : Obligations.FormattedRunsItsRow := by
  intro line a p s i row
  have same : exec i s = runFormatted line a p s := by
    rcases row with ⟨-, rfl⟩ | ⟨-, rfl⟩ <;> rfl
  rw [same, ← idlHammingError_eq]
  refine ⟨runFormatted_of_none, fun ft decoded => ?_⟩
  obtain ⟨t, ran⟩ := (runFormatted_serves line a p s).total
  refine ⟨decodeIdlft line a ft p, t, rfl, (runFormatted_of_some decoded).symm.trans ran, ran, ?_⟩
  rw [decodeIdlft_eq_toNat]
  refine ⟨fun h => if_pos h, fun h => ?_, fun h => ?_⟩
  · rw [if_neg (by omega), if_pos h]
  · rw [if_neg (by omega), if_neg (by omega)]

/-- Settles O56: Format A runs the row of the address length, and the row of the reserved one reads no byte. -/
theorem formatARunsItsRow : Obligations.FormatARunsItsRow := by
  intro line a ft p s _
  refine ⟨fun failed => ?_, fun ial decoded => ?_, fun ial _ => ?_⟩
  · rw [← idlHammingError_eq]
    exact execIdlFormatA_of_none failed
  · obtain ⟨t, ran⟩ := (execIdlFormatA_serves line a p s ft).total
    refine ⟨decodeIdlial line a ft ial p, t, rfl, (execIdlFormatA_of_some decoded).symm.trans ran, ran, ?_⟩
    simp only [decodeIdlial_eq, idlSpaLength_eq_seven_iff]
  · rw [← emit_idlRecord]
    rfl

/-- Settles O57: the row decodes the bytes `p[4]` to `p[3 + spa_length]` as a run. -/
theorem servicePacketAddress : Obligations.ServicePacketAddress := by
  intro line a ft ial p s _ short
  have length : idlSpaLength ial = BitVec.ofNat 3 (field ial 2 0) := extractLsb'_eq_ofNat_field ial rfl
  have bytes := idlSpaBytes_eq_map_range p ((idlSpaLength_toNat ial).trans_le short)
  rw [idlSpaLength_toNat] at bytes
  rw [← idlHammingError_eq]
  constructor
  · rintro ⟨k, hk, failed⟩
    refine execIdlSpa_of_none ?_ failed
    rw [bytes]
    exact List.mem_map_of_mem (List.mem_range.mpr hk)
  · intro ns count nibbles
    have decoded : (idlSpaBytes p (idlSpaLength ial)).map (unham8 s.cfg) = ns.map some := by
      rw [bytes]
      refine List.ext_getElem (by simp [count]) fun k hk hk' => ?_
      have lt : k < ns.length := by simpa using hk'
      simpa [List.getElem?_eq_getElem lt] using nibbles k (count ▸ lt)
    rw [← length, ← emit_idlRecord]
    exact execIdlSpa_of_some decoded

/-- Settles O58: Format B branches on its one Hamming byte; the other row does not branch. -/
theorem formatBAndOtherResults : Obligations.FormatBAndOtherResults := by
  intro line a ft p s
  have number : ft.extractLsb' 2 2 = BitVec.ofNat 2 (field ft 3 2) := extractLsb'_eq_ofNat_field ft rfl
  simp only [← idlHammingError_eq, ← emit_idlRecord, ← number]
  exact ⟨fun _ failed => execIdlFormatB_of_none failed, fun _ _ decoded => execIdlFormatB_of_some decoded, fun _ => rfl⟩

/-- Settles O52: none of these rows branches. -/
theorem idlPlainResults : Obligations.IdlPlainResults := by
  intro line a p s
  simp only [← emit_idlRecord]
  exact ⟨fun _ => rfl, fun _ => rfl, fun _ _ => rfl, fun _ => rfl⟩

end Sys2Proof
end

section
/-!
The hard faults and the parity error (60_exceptions.md R304 to R306). A request of a service tag has the tag's width,
and then is one of the six decode operations, or has another length, and then is the size-mismatch row; the other tags
select a NOP row. Every decode operation begins with the line check, so above line 1023 the six have one next state.
-/

namespace Sys2Proof.Machine

/-! ### The line check (R305) -/

/-- The six decode operations begin with the line check, so they share its hard fault. -/
theorem exec_services_of_gt {line : Line} {p : Payload} {v : VpsPayload} {b0 b1 b2 : Byte} (s : State)
    (above : 1023 < line.toNat) :
    ∀ i ∈ services line p v b0 b1 b2, exec i s = .next (raiseFault line .lineRange line s) := by
  have faults : ∀ service : Out, withLine line s service = .next (raiseFault line .lineRange line s) :=
    fun service => withLine_of_gt s service (by bv_omega)
  simp only [services, List.forall_mem_cons]
  exact ⟨faults _, faults _, faults _, faults _, faults _, faults _, List.forall_mem_nil _⟩

/-! ### The parity error (R306) -/

theorem unpar8_of_even {b : Byte} (even : ones b % 2 = 0) : unpar8 b = none := by
  rw [unpar8, popcount_eq_ones, if_neg (by omega)]

theorem unpar8_isNone (b : Byte) : (unpar8 b).isNone = decide (ones b % 2 = 0) := by
  obtain even | odd := Nat.mod_two_eq_zero_or_one (ones b)
  · simp [unpar8_of_even even, even]
  · simp [unpar8_of_odd odd, odd]

/-- The row's record, with the failed bytes counted 1 and 2. -/
theorem execCcParityError_eq (line : Line) (b0 b1 : Byte) (s : State) :
    execCcParityError line b0 b1 s =
      .next (softError line .parityError
        (BitVec.ofNat 4 ((if ones b0 % 2 = 0 then 1 else 0) + (if ones b1 % 2 = 0 then 2 else 0)))
        (BitVec.ofNat 16 (256 * b0.toNat + b1.toNat)) s) := by
  simp only [execCcParityError, unpar8_isNone, decide_eq_true_eq, bytes_append]
  by_cases even0 : ones b0 % 2 = 0 <;> by_cases even1 : ones b1 % 2 = 0 <;> simp only [even0, even1] <;> rfl

/-- A pair with a byte of even parity is not interpreted. -/
theorem runCaption_of_even {line : Line} {b0 b1 : Byte} {s : State} (even : ones b0 % 2 = 0 ∨ ones b1 % 2 = 0) :
    runCaption line b0 b1 s = execCcParityError line b0 b1 s := by
  rcases even with even | even
  · simp only [runCaption, unpar8_of_even even]
  · rw [runCaption, unpar8_of_even even]
    cases unpar8 b0 <;> rfl

end Sys2Proof.Machine

namespace Sys2Proof

open Sys2Proof.Machine

/-! ### The row of a service tag (40_dispatch.md R100 to R102) -/

/-- A service tag with its own width selects one of the six decode operations. -/
theorem decode_req_of_width_eq {r : Request} (cfg : Config) (low : 1 ≤ field r.word 3 0) (high : field r.word 3 0 ≤ 6)
    (sized : field r.word 9 4 = serviceWidth (field r.word 3 0)) :
    ∃ i ∈ services (BitVec.ofNat 16 (field r.word 31 16)) r.data (Vector.ofFn fun k => r.data[k.val])
        r.data[0] r.data[1] r.data[2], decode cfg (.req r) = .ok i := by
  obtain ⟨-, ttx, cc525, cc625, vps, wss, cpr, -⟩ := requestSelectsService cfg r
  obtain tag | tag | tag | tag | tag | tag : field r.word 3 0 = 1 ∨ field r.word 3 0 = 2 ∨ field r.word 3 0 = 3 ∨
    field r.word 3 0 = 4 ∨ field r.word 3 0 = 5 ∨ field r.word 3 0 = 6 := by omega
  all_goals rw [tag] at sized
  · exact ⟨_, by simp [services], ttx tag sized⟩
  · exact ⟨_, by simp [services], cc525 tag sized⟩
  · exact ⟨_, by simp [services], cc625 tag sized⟩
  · exact ⟨_, by simp [services], vps tag sized⟩
  · exact ⟨_, by simp [services], wss tag sized⟩
  · exact ⟨_, by simp [services], cpr tag sized⟩

/-- A service tag with another length passes every row but the last. -/
theorem decode_req_of_width_ne {r : Request} (cfg : Config) (low : 1 ≤ field r.word 3 0) (high : field r.word 3 0 ≤ 6)
    (wrong : field r.word 9 4 ≠ serviceWidth (field r.word 3 0)) :
    decode cfg (.req r) = .ok (.reqSizeMismatch (reqLine r.word) (reqTag r.word) (reqLen r.word)) := by
  have notSized : ∀ (tag : BitVec 4) (len : BitVec 6), serviceWidth tag.toNat = len.toNat →
      ¬ (reqTag r.word = tag ∧ reqLen r.word = len) := by
    rintro tag len width ⟨rfl, rfl⟩
    rw [reqTag_toNat, reqLen_toNat] at width
    exact wrong width.symm
  rw [← reqTag_toNat] at low high
  have service : reqTag r.word ≠ 0 ∧ reqTag r.word ≠ 7 ∧ ¬ 8 ≤ reqTag r.word := by bv_omega
  obtain ⟨not0, not7, notHigh⟩ := service
  simp only [decode, decodeReq_eq, if_neg not0, if_neg not7, if_neg notHigh, if_neg (notSized 1 42 rfl),
    if_neg (notSized 2 2 rfl), if_neg (notSized 3 2 rfl), if_neg (notSized 4 13 rfl), if_neg (notSized 5 2 rfl),
    if_neg (notSized 6 3 rfl)]

/-- The size-mismatch row is the row of no other request (R304). -/
theorem decode_req_ne_sizeMismatch {r : Request} {cfg : Config} {i : Instr} (decoded : decode cfg (.req r) = .ok i)
    (sized : 1 ≤ field r.word 3 0 → field r.word 3 0 ≤ 6 → field r.word 9 4 = serviceWidth (field r.word 3 0))
    (line : Line) (tag : BitVec 4) (len : BitVec 6) : i ≠ .reqSizeMismatch line tag len := by
  obtain ⟨tag0, -, -, -, -, -, -, tag7, tag8⟩ := requestSelectsService cfg r
  obtain zero | seven | high | ⟨low, high⟩ : field r.word 3 0 = 0 ∨ field r.word 3 0 = 7 ∨ 8 ≤ field r.word 3 0 ∨
    (1 ≤ field r.word 3 0 ∧ field r.word 3 0 ≤ 6) := by omega
  · cases decoded.symm.trans (tag0 zero); simp
  · cases decoded.symm.trans (tag7 seven); simp
  · cases decoded.symm.trans (tag8 high); simp
  · obtain ⟨j, mem, row⟩ := decode_req_of_width_eq cfg low high (sized low high)
    cases decoded.symm.trans row
    rintro rfl
    simp [services] at mem

/-- `aux` of a size mismatch as the statements write it (40_dispatch.md R102). -/
theorem sizeMismatchAux_eq_ofNat (tag : BitVec 4) (len : BitVec 6) :
    0#4 ++ tag ++ 0#2 ++ len = BitVec.ofNat 16 (256 * tag.toNat + len.toNat) := by
  apply BitVec.eq_of_toNat_eq
  rw [append_toNat, append_toNat, append_toNat, BitVec.toNat_ofNat]
  simp only [BitVec.toNat_ofNat]
  omega

/-! ### The statements -/

/-- Settles O2: the row is the one a service tag with another length falls through to, and its hard fault does not
branch. -/
theorem sizeMismatchFaults : Obligations.SizeMismatchFaults := by
  have fault : ∀ (line : Line) (tag : BitVec 4) (len : BitVec 6) (s : State),
      exec (.reqSizeMismatch line tag len) s =
        .next (raiseFault line .sizeMismatch (BitVec.ofNat 16 (256 * tag.toNat + len.toNat)) s) := by
    intro line tag len s
    rw [← sizeMismatchAux_eq_ofNat]
    rfl
  refine ⟨fun cfg r => ⟨?_, ?_⟩, fun cfg r s low high wrong => ?_, fun line tag len s _ _ _ => fault line tag len s⟩
  · rintro ⟨line, tag, len, decoded⟩
    by_contra other
    exact decode_req_ne_sizeMismatch decoded (fun low high => not_not.mp fun wrong => other ⟨low, high, wrong⟩)
      line tag len rfl
  · rintro ⟨low, high, wrong⟩
    exact ⟨_, _, _, decode_req_of_width_ne cfg low high wrong⟩
  · refine ⟨_, decode_req_of_width_ne cfg low high wrong, ?_⟩
    rw [fault, reqTag_toNat, reqLen_toNat, ofNat_lineField]
    rfl

/-- Settles O3: a correctly sized request is a decode operation, whose line check faults above line 1023 and else passes
the service through. -/
theorem lineRangeFaults : Obligations.LineRangeFaults := by
  refine ⟨fun cfg r s low high sized => ?_, fun line p v b0 b1 b2 s above => exec_services_of_gt s above⟩
  obtain ⟨i, mem, decoded⟩ := decode_req_of_width_eq cfg low high sized
  have lineNumber : (BitVec.ofNat 16 (field r.word 31 16)).toNat = field r.word 31 16 := by
    rw [ofNat_lineField, reqLine_toNat]
  by_cases above : 1023 < field r.word 31 16
  · exact ⟨i, _, decoded, exec_services_of_gt s (by rwa [lineNumber]) i mem, fun _ => rfl, fun inRange => by omega⟩
  · obtain ⟨served, -⟩ := serviceRecord (BitVec.ofNat 16 (field r.word 31 16)) r.data
      (Vector.ofFn fun k => r.data[k.val]) r.data[0] r.data[1] r.data[2] s (by omega)
    obtain ⟨t, ran, sameFault, sameCause, -⟩ := served i mem
    exact ⟨i, t, decoded, ran, fun above' => absurd above' above, fun _ => ⟨sameFault, sameCause⟩⟩

/-- Settles O24: the parity check fails before the pair is interpreted, and the row emits its record only. -/
theorem parityErrorResult : Obligations.ParityErrorResult := by
  intro line b0 b1 s even
  refine ⟨fun cfg => ?_, fun i hi => ?_⟩
  · have row : decodeCcraw line b0 b1 = .ccParityError line b0 b1 := if_pos (by simpa [unpar8_isNone] using even)
    exact congrArg Except.ok row
  · have failed : exec i s = execCcParityError line b0 b1 s := by
      rcases hi with rfl | ⟨inRange, rfl | rfl⟩
      · rfl
      · exact (withLine_of_le s _ inRange).trans (runCaption_of_even even)
      · exact (withLine_of_le s _ inRange).trans (runCaption_of_even even)
    rw [failed, execCcParityError_eq]
    rfl

end Sys2Proof
end

section
/-!
Reset, idling and what a session reset forgets (70_reset_and_hazards.md R330 to R332). A record is computed from the
operands, the configuration and the session registers: the fault status is read only by the latch of a hard fault, which
writes it back, and by a readout, which emits no record. So two runs from states that differ in the fault status and in
the model's own fields give the same records, and after SRST any two states with one configuration differ in no more.
-/

namespace Sys2Proof.Machine

/-! ### The fields no record depends on -/

/-- The state `s` with the fault status and the model's own fields but the configuration of `e`. -/
def State.withUnread (s e : State) : State :=
  { s.withOwnFields e with fault := e.fault, faultCause := e.faultCause }

@[simp] theorem withUnread_cfg (s e : State) : (s.withUnread e).cfg = s.cfg := rfl

/-- States with the same configuration and session registers differ in those fields only. -/
theorem eq_withUnread {s e : State} (hcfg : e.cfg = s.cfg) (h : sameSession s e) : e = s.withUnread e := by
  obtain ⟨hch, hbuf, hpos, hlen, hprev, hplen⟩ := h
  cases e
  simp_all [State.withUnread, State.withOwnFields]

/-- The state with the fault status and the model's own fields blanked, but for the configuration and the record. -/
def State.blanked (s : State) : State :=
  { s with fault := 0, faultCause := 0, inputs := [], pc := 0, rdata := none }

/-- What two states with one blanked state share. -/
theorem shared_of_blanked_eq {t t' : State} (h : t'.blanked = t.blanked) :
    t'.rsp = t.rsp ∧ t'.cfg = t.cfg ∧ sameSession t t' := by
  simp only [State.blanked, State.mk.injEq] at h
  obtain ⟨hcfg, -, -, hch, hbuf, hpos, hlen, hprev, hplen, -, -, hrsp, -⟩ := h
  exact ⟨hrsp, hcfg, hch, hbuf, hpos, hlen, hprev, hplen⟩

/-- An operation with the same record and session registers whatever the fault status and the model's own fields. -/
def ReadsSessionOnly (f : State → Out) : Prop :=
  ∀ s e : State, mapNext State.blanked (f (s.withUnread e)) = mapNext State.blanked (f s)

/-- The line check of a decode operation: its own outcome is an Error record and a fault status. -/
theorem ReadsSessionOnly.withLine {service : State → Out} (h : ReadsSessionOnly service) (line : Line) :
    ReadsSessionOnly fun s => withLine line s (service s) := by
  intro s e
  by_cases inRange : line ≤ 1023#16
  · simpa only [withLine_of_le _ _ inRange] using h s e
  · simp only [withLine_of_gt _ _ inRange]
    rfl

/-! The interpreters, innermost first: none of them reads the fault status. -/

theorem execCcPac_readsSessionOnly (line : Line) (c1 c2 : Char7) : ReadsSessionOnly (execCcPac line c1 c2) := by
  intro s e
  by_cases unassigned : pacRow s.cfg c1 c2 = 0 <;> simp only [execCcPac, withUnread_cfg, unassigned] <;> rfl

theorem runCcTable_readsSessionOnly (line : Line) (c1 c2 : Char7) : ReadsSessionOnly (runCcTable line c1 c2) := by
  intro s e
  unfold runCcTable
  split <;> (repeat' split) <;> rfl

theorem runCcPair_readsSessionOnly (line : Line) (c1 c2 : Char7) : ReadsSessionOnly (runCcPair line c1 c2) := by
  intro s e
  unfold runCcPair
  split; · rfl
  split; · rfl
  split; · rfl
  split
  · exact execCcPac_readsSessionOnly line c1 c2 s e
  · exact runCcTable_readsSessionOnly line c1 c2 s e

theorem runCaption_readsSessionOnly (line : Line) (b0 b1 : Byte) : ReadsSessionOnly (runCaption line b0 b1) := by
  intro s e
  unfold runCaption
  split
  · exact runCcPair_readsSessionOnly line _ _ s e
  · rfl

theorem runVps_readsSessionOnly (line : Line) (p : VpsPayload) : ReadsSessionOnly (runVps line p) := by
  intro s e
  unfold runVps
  cases vpsFlag p <;> rfl

section

variable (line : Line) (a : BitVec 8) (p : Payload)

theorem runDatavideo_readsSessionOnly : ReadsSessionOnly (runDatavideo line a p) := by
  intro s e
  simp only [runDatavideo, withUnread_cfg]
  split <;> rfl

theorem execIdlSpa_readsSessionOnly (ft ial : BitVec 4) : ReadsSessionOnly (execIdlSpa line a ft ial p) := by
  intro s e
  simp only [execIdlSpa, withUnread_cfg]
  split <;> rfl

theorem execIdlFormatA_readsSessionOnly (ft : BitVec 4) : ReadsSessionOnly (execIdlFormatA line a ft p) := by
  intro s e
  simp only [execIdlFormatA, withUnread_cfg]
  split; · rfl
  split
  · rfl
  · exact execIdlSpa_readsSessionOnly line a p ft _ s e

theorem execIdlFormatB_readsSessionOnly (ft : BitVec 4) : ReadsSessionOnly (execIdlFormatB line a ft p) := by
  intro s e
  simp only [execIdlFormatB, withUnread_cfg]
  split <;> rfl

theorem runFormatted_readsSessionOnly : ReadsSessionOnly (runFormatted line a p) := by
  intro s e
  simp only [runFormatted, withUnread_cfg]
  split; · rfl
  split; · exact execIdlFormatA_readsSessionOnly line a p _ s e
  split
  · exact execIdlFormatB_readsSessionOnly line a p _ s e
  · rfl

theorem runIdl_readsSessionOnly : ReadsSessionOnly (runIdl line a p) := by
  intro s e
  simp only [runIdl, withUnread_cfg]
  split; · rfl
  split; · exact runDatavideo_readsSessionOnly line a p s e
  split; · exact runDatavideo_readsSessionOnly line a p s e
  split; · exact runFormatted_readsSessionOnly line a p s e
  split; · exact runFormatted_readsSessionOnly line a p s e
  split; · rfl
  by_cases lbra : idlChannel a = 7 ∧ s.cfg.idlCh7Lbra = true <;> simp only [lbra] <;> rfl

theorem runTeletext_readsSessionOnly : ReadsSessionOnly (runTeletext line p) := by
  intro s e
  simp only [runTeletext, withUnread_cfg]
  split; · rfl
  split; · rfl
  split
  · exact runIdl_readsSessionOnly line _ p s e
  · rfl

end

/-- No instruction's record or session registers depend on the fault status. The rows not named do not branch. -/
theorem exec_readsSessionOnly (i : Instr) : ReadsSessionOnly (exec i) := by
  cases i with
  | decTtx line p => exact (runTeletext_readsSessionOnly line p).withLine line
  | decCc525 line b0 b1 => exact (runCaption_readsSessionOnly line b0 b1).withLine line
  | decCc625 line b0 b1 => exact (runCaption_readsSessionOnly line b0 b1).withLine line
  | decVps line p => exact (runVps_readsSessionOnly line p).withLine line
  | decWss625 line b0 b1 =>
    exact ReadsSessionOnly.withLine (service := fun s => .next (emit (.wss (wssRecord s.cfg line b0 b1)) s))
      (fun _ _ => rfl) line
  | decCpr1204 line b0 b1 b2 =>
    exact ReadsSessionOnly.withLine (service := fun s => .next (emit (.wssCpr (cprRecord line b0 b1 b2)) s))
      (fun _ _ => rfl) line
  | ccParityOk line b0 b1 => exact runCcPair_readsSessionOnly line _ _
  | ccPac line c1 c2 => exact execCcPac_readsSessionOnly line c1 c2
  | ttxIdl line a p => exact runIdl_readsSessionOnly line a p
  | idlDatavideo5or13 line a p => exact runDatavideo_readsSessionOnly line a p
  | idlDatavideo6or14 line a p => exact runDatavideo_readsSessionOnly line a p
  | idlFormatted8to11 line a p => exact runFormatted_readsSessionOnly line a p
  | idlFormatted15 line a p => exact runFormatted_readsSessionOnly line a p
  | idlFormatA line a ft p => exact execIdlFormatA_readsSessionOnly line a p ft
  | idlFormatB line a ft p => exact execIdlFormatB_readsSessionOnly line a p ft
  | idlSpa line a ft ial p => exact execIdlSpa_readsSessionOnly line a p ft ial
  | _ => exact fun _ _ => rfl

/-! ### Runs (R332) -/

/-- One instruction from two states with the same configuration and session registers. -/
theorem exec_blanked_eq {i : Instr} {s s' t t' : State} (hcfg : s'.cfg = s.cfg) (same : sameSession s s')
    (ran : exec i s = .next t) (ran' : exec i s' = .next t') : t'.blanked = t.blanked := by
  have reads := exec_readsSessionOnly i s s'
  rw [← eq_withUnread hcfg same, ran, ran'] at reads
  exact Host.Outcome.next.inj reads

theorem records_cons {i : Instr} {s t : State} (ran : exec i s = .next t) (is : List Instr) :
    records (i :: is) s = t.rsp :: records is t := by
  simp [records, ran]

/-- The records of a sequence follow from the configuration and the session registers. -/
theorem records_eq_of_sameSession (is : List Instr) {s s' : State} (hcfg : s'.cfg = s.cfg) (same : sameSession s s') :
    records is s = records is s' := by
  induction is generalizing s s' with
  | nil => rfl
  | cons i is ih =>
    obtain ⟨t, ran⟩ := exec_total i s
    obtain ⟨t', ran'⟩ := exec_total i s'
    obtain ⟨sameRecord, sameCfg, sameRegs⟩ := shared_of_blanked_eq (exec_blanked_eq hcfg same ran ran')
    rw [records_cons ran, records_cons ran', sameRecord, ih sameCfg sameRegs]

end Sys2Proof.Machine

namespace Sys2Proof

open Sys2Proof.Machine

/-! ### The statements -/

/-- Settles O19: SRST sets the session registers to constants, and no record depends on what it leaves. -/
theorem srstForgetsTheSession : Obligations.SrstForgetsTheSession := by
  intro is s s' t t' hcfg ran ran'
  cases ran
  cases ran'
  exact records_eq_of_sameSession is hcfg ⟨rfl, rfl, rfl, rfl, rfl, rfl⟩

/-- Settles O12: with nothing presented the step is `idleStep` on the presentations that are left. -/
theorem idleStep : Obligations.IdleStep := by
  refine ⟨fun s nothing => ?_, fun rest s presented => step_of_nothingPresented presented rfl⟩
  rw [step_of_inputs_nil nothing, ← nothing]
  rfl

/-- Settles O9: PORST does not branch, and each register it writes is the reset state's. -/
theorem porstResult : Obligations.PorstResult := by
  refine fun s => ⟨rfl, fun t ran => ?_⟩
  cases ran
  exact ⟨rfl, rfl, rfl, rfl, rfl, rfl, rfl, rfl⟩

/-- Settles O20: the fault status is clear, and the label registers are those a session reset leaves. -/
theorem resetHasTheInvariant : Obligations.ResetHasTheInvariant := by
  have inv : State.reset.Inv := (inv_iff State.reset).mpr ⟨.inl ⟨rfl, rfl⟩, labelsOk_clearSession State.reset⟩
  exact ⟨inv, rfl, rfl, rfl, rfl, rfl, rfl, rfl, rfl⟩

end Sys2Proof
end
